-- ==== Sys2Proof/Word.lean ====
section
/-! DEFINITION. The values the engine moves (00_scope.md R10): bits and line levels, bytes, the 32-bit data word, and the
five classes of a transfer's result (60_exceptions.md R181). -/

namespace Sys2Proof

/-- A bit, or a line level: `true` is 1, high (R10). -/
abbrev Bit := Bool

/-- A byte of a bit buffer (R50). -/
abbrev Byte := BitVec 8

/-- The data word of a transfer, "exactly 32 bits" (R31). -/
abbrev Word := BitVec 32

/-- The bytes that hold `n` bits: `ceil8(n) = (n + 7) div 8` (R10). -/
def ceil8 (n : Nat) : Nat := (n + 7) / 8

/-- The five outcome classes of `TRANSFER` (R181, "a model should use a five-constructor type, PROTOCOL_ERROR carrying the
3-bit pattern"). -/
inductive ResultClass where
  | ok
  | wait
  | fault
  | parityError
  | protocolError (pattern : BitVec 3)
  deriving DecidableEq, Repr, Inhabited

end Sys2Proof
end

