-- ==== Sys2Proof/Config.lean ====
section
/-! DEFINITION. What an implementation fixes (the parameters of 00_scope.md R9) and what the spec leaves free (the samples of
the line, R14; the working registers between operations, R30 to R38; bytes of SRC nobody supplied). The free values are
opaque: nothing in Lean can evaluate one or prove a value of one. -/

namespace Sys2Proof.Config

/-- The parameters R9 says the source leaves open ("A model should take them as arguments, not constants"): State carries
them, no step writes them, and a statement about every state is about every choice of them (log 5). -/
structure Params where
  /-- `TURN_MAX`: largest legal `CFG.TURNAROUND` (D7). -/
  turnMax : Nat
  /-- `IDLE_MAX`: largest legal `CFG.IDLE` (D8). -/
  idleMax : Nat
  /-- `GEN_MAX`: largest legal bit count of `GEN_SEQ` (D11). -/
  genMax : Nat
  /-- `XCHG_COUNT_BITS`: width of the count field of `XCHG_SEQ` (D10); the layout of R77, with `info[7]` and `info[6]` taken, has
  room for at most 6. -/
  xchgCountBits : Fin 7
  /-- `RES_PARITY_ERROR`: the number that spells the parity-downgraded result (D12). -/
  resParityError : BitVec 4
  /-- `DUMMY_WRITE_LEVEL`: level of `DIO_O` in the dummy block of a WAIT or FAULT write (D15). -/
  dummyWriteLevel : Bit
  /-- `HAS_DIR`: whether the direction register `DIO_DIR` exists (D2, D3). -/
  hasDir : Bool
  deriving DecidableEq, Repr

/-- The defaults of R9. -/
def Params.default : Params where
  turnMax := 4
  idleMax := 255
  genMax := 256
  xchgCountBits := 6
  resParityError := 0b1000
  dummyWriteLevel := false
  hasDir := true

/-- `XCHG_ZERO_MEANS` (R9): the bit count when the count field of `XCHG_SEQ` is 0. -/
def xchgZeroMeans : Nat := 64

/-- `DATA_BITS` (R9). -/
def dataBits : Nat := 32

/-- `PHASE_BITS` (R9): 32 data bits and the parity bit. -/
def phaseBits : Nat := 33

/-- FREE VALUE: what the `n`-th sample of the data line returns when no scripted sample is left (R14, D17; log 6). -/
opaque lineSample : Nat → Bit

/-- FREE VALUE: a byte of SRC that the dispatcher did not supply (log 10). -/
opaque freeSrcByte : Nat → Byte

/-- FREE VALUE: `REQ` between operations (R30, U14; log 7). -/
opaque freeReq : Nat → BitVec 4
/-- FREE VALUE: `DATA` between operations (R31; log 7). -/
opaque freeData : Nat → Word
/-- FREE VALUE: `PAR` between operations (R32; log 7). -/
opaque freePar : Nat → Bit
/-- FREE VALUE: `ACK` between operations (R33; log 7). -/
opaque freeAck : Nat → BitVec 3
/-- FREE VALUE: `RES` between operations (R34; log 7). -/
opaque freeRes : Nat → ResultClass
/-- FREE VALUE: `BYTE` between operations (R35; log 7). -/
opaque freeByte : Nat → Byte
/-- FREE VALUE: `NBITS` between operations (R36; log 7). -/
opaque freeNbits : Nat → Nat
/-- FREE VALUE: `BIDX` between operations (R37; log 7). -/
opaque freeBidx : Nat → Nat
/-- FREE VALUE: `K` between operations (R38; log 7). -/
opaque freeK : Nat → Nat

end Sys2Proof.Config
end

