-- ==== Sys2Proof/Syntax.lean ====
section
/-! DEFINITION. The operations of the engine (00_scope.md R3), one constructor per row of spec/opcode_table.json. -/

namespace Sys2Proof

/-- The six exposed operation forms (R70) and the three internal micro-operations (R80), with their operands. -/
inductive Instr where
  /-- `GEN_SEQ(count, SRC)` (R110); `SRC` is passed beside the word. -/
  | genSeq (count : BitVec 9)
  /-- `XCHG_SEQ.OUT(info, SRC)` (R111). -/
  | xchgSeqOut (info : BitVec 8)
  /-- `XCHG_SEQ.IN(info) -> DST` (R112). -/
  | xchgSeqIn (info : BitVec 8)
  /-- `TRANSFER.RD(req)` (R150). -/
  | transferRd (req : BitVec 4)
  /-- `TRANSFER.WR(req, wdata)` (R151). -/
  | transferWr (req : BitVec 4) (wdata : Word)
  /-- `CFG_WRITE(turnaround, idle, data_phase)` (R170). -/
  | cfgWrite (turnaround idle : BitVec 8) (dataPhase : Bit)
  /-- `WRITE_BIT(v)` (R100). -/
  | writeBit (v : Bit)
  /-- `READ_BIT` (R101). -/
  | readBit
  /-- `CLOCK_CYCLE` (R102). -/
  | clockCycle
  deriving DecidableEq, Repr

/-- The words an operation is spelled with: a 44-bit command (R71) or a 3-bit micro-operation (R80). -/
inductive CodeWord where
  | cmd (w : BitVec 44)
  | uop (w : BitVec 3)
  deriving DecidableEq, Repr

/-- Whether the operation is one of the internal micro-operations (R70, D27). -/
def Instr.isMicroOp : Instr → Bool
  | .genSeq _ => false
  | .xchgSeqOut _ => false
  | .xchgSeqIn _ => false
  | .transferRd _ => false
  | .transferWr _ _ => false
  | .cfgWrite _ _ _ => false
  | .writeBit _ => true
  | .readBit => true
  | .clockCycle => true

/-- The operation's mnemonic in spec/opcode_table.json. -/
def Instr.mnemonic : Instr → String
  | .genSeq _ => "GEN_SEQ"
  | .xchgSeqOut _ => "XCHG_SEQ.OUT"
  | .xchgSeqIn _ => "XCHG_SEQ.IN"
  | .transferRd _ => "TRANSFER.RD"
  | .transferWr _ _ => "TRANSFER.WR"
  | .cfgWrite _ _ _ => "CFG_WRITE"
  | .writeBit _ => "WRITE_BIT"
  | .readBit => "READ_BIT"
  | .clockCycle => "CLOCK_CYCLE"

end Sys2Proof
end

