-- ==== Sys2Proof/WellFormed.lean ====
section
/-! DEFINITION. Which operation terms a word can spell (`Instr.wf`) and which of those have operands in the legal ranges
(`Instr.legal`, 30_encoding.md R81). -/

namespace Sys2Proof

/-- A term that some word decodes to: the direction bit of the form and the must-be-zero bit of the info byte (R77), and the
`RnW` bit of the request that selects the form of `TRANSFER` (R71, R72). The other operands admit every value of their field. -/
def Instr.wf : Instr → Bool
  | .genSeq _ => true
  | .xchgSeqOut info => !info.getLsbD 7 && !info.getLsbD 6
  | .xchgSeqIn info => info.getLsbD 7 && !info.getLsbD 6
  | .transferRd req => req.getLsbD 1
  | .transferWr req _ => !req.getLsbD 1
  | .cfgWrite _ _ _ => true
  | .writeBit _ => true
  | .readBit => true
  | .clockCycle => true

/-- The operand ranges of R81 (c) and (d), which depend on the parameters of R9; and no bit set between the count field of an info
byte, as wide as `XCHG_COUNT_BITS` says, and `info[7]` (R77; log 5). -/
def Instr.legal (p : Config.Params) : Instr → Bool
  | .genSeq count => decide (count.toNat ≤ p.genMax)
  | .xchgSeqOut info => decide (info.setWidth 7 >>> p.xchgCountBits.val = 0)
  | .xchgSeqIn info => decide (info.setWidth 7 >>> p.xchgCountBits.val = 0)
  | .transferRd _ => true
  | .transferWr _ _ => true
  | .cfgWrite turnaround idle _ =>
      decide (1 ≤ turnaround.toNat) && decide (turnaround.toNat ≤ p.turnMax) && decide (idle.toNat ≤ p.idleMax)
  | .writeBit _ => true
  | .readBit => true
  | .clockCycle => true

end Sys2Proof
end

