-- ==== Sys2Proof/Decode.lean ====
section
/-! DEFINITION. The words of 30_encoding.md section 1: the decoder, total on every word and refusing by name; the encoder,
from the same layouts; and the opcode table of spec/opcode_table.json as rows of a mask and a pattern. -/

namespace Sys2Proof

/-- Why a word is no operation (R80, R81 a and b). -/
inductive DecodeError where
  /-- A reserved operation code, `0x0` or `0x5` to `0xF` (R81 a). -/
  | reservedOp (op : BitVec 4)
  /-- A must-be-zero bit of R71 is set (R81 b). -/
  | mustBeZero
  /-- `0b00x` "means no micro-operation (idle)" (R80). -/
  | noMicroOp
  /-- `0b011` and `0b111` "are unused" (R80). -/
  | unusedMicroOp
  deriving DecidableEq, Repr

/-- `op`, bits 43 to 40 of a command (R71). -/
def cmdOp (w : BitVec 44) : BitVec 4 := w.extractLsb' 40 4

/-- `arg[lo+len-1 : lo]` of a command (R71). -/
def cmdArg (w : BitVec 44) (lo len : Nat) : BitVec len := w.extractLsb' lo len

/-- `op = 0x1`: `arg[8:0] = count`, `arg[39:9]` must be 0 (R71). -/
def decodeGenSeq (w : BitVec 44) : Except DecodeError Instr :=
  if cmdArg w 9 31 = 0 then .ok (.genSeq (cmdArg w 0 9)) else .error .mustBeZero

/-- `op = 0x2`: `arg[7:0] = info`, `arg[39:8]` and `info[6]` must be 0; `info[7]` selects the form (R71, R77). -/
def decodeXchgSeq (w : BitVec 44) : Except DecodeError Instr :=
  if cmdArg w 8 32 ≠ 0 ∨ w.getLsbD 6 then .error .mustBeZero
  else if w.getLsbD 7 then .ok (.xchgSeqIn (cmdArg w 0 8))
  else .ok (.xchgSeqOut (cmdArg w 0 8))

/-- `op = 0x3`: `arg[3:0] = req`, `arg[7:4]` must be 0, `arg[39:8] = wdata`; `req[1]` selects the form, and for the read
"the `wdata` field is ignored and may hold anything" (R71). -/
def decodeTransfer (w : BitVec 44) : Except DecodeError Instr :=
  if cmdArg w 4 4 ≠ 0 then .error .mustBeZero
  else if w.getLsbD 1 then .ok (.transferRd (cmdArg w 0 4))
  else .ok (.transferWr (cmdArg w 0 4) (cmdArg w 8 32))

/-- `op = 0x4`: `arg[7:0] = turnaround`, `arg[15:8] = idle`, `arg[16] = data_phase`, `arg[39:17]` must be 0 (R71). -/
def decodeCfgWrite (w : BitVec 44) : Except DecodeError Instr :=
  if cmdArg w 17 23 = 0 then .ok (.cfgWrite (cmdArg w 0 8) (cmdArg w 8 8) (w.getLsbD 16)) else .error .mustBeZero

/-- The command decoder (R71). -/
def decodeCmd (w : BitVec 44) : Except DecodeError Instr :=
  if cmdOp w = 1 then decodeGenSeq w
  else if cmdOp w = 2 then decodeXchgSeq w
  else if cmdOp w = 3 then decodeTransfer w
  else if cmdOp w = 4 then decodeCfgWrite w
  else .error (.reservedOp (cmdOp w))

/-- The micro-operation decoder (R80): `0b010` CLOCK_CYCLE, `0b10v` WRITE_BIT(v), `0b110` READ_BIT. -/
def decodeUop (w : BitVec 3) : Except DecodeError Instr :=
  if w = 0b010 then .ok .clockCycle
  else if w.extractLsb' 1 2 = 0b10 then .ok (.writeBit (w.getLsbD 0))
  else if w = 0b110 then .ok .readBit
  else if w.extractLsb' 1 2 = 0b00 then .error .noMicroOp
  else .error .unusedMicroOp

/-- The decoder, total on every word of either kind. -/
def decode : CodeWord → Except DecodeError Instr
  | .cmd w => decodeCmd w
  | .uop w => decodeUop w

/-- The encoder, from the layouts of R71, R77 and R80. A `TRANSFER.RD` is spelled with a `wdata` field of 0. -/
def encode : Instr → CodeWord
  | .genSeq count => .cmd (0x1#4 ++ 0#31 ++ count)
  | .xchgSeqOut info => .cmd (0x2#4 ++ 0#32 ++ info)
  | .xchgSeqIn info => .cmd (0x2#4 ++ 0#32 ++ info)
  | .transferRd req => .cmd (0x3#4 ++ 0#32 ++ 0#4 ++ req)
  | .transferWr req wdata => .cmd (0x3#4 ++ wdata ++ 0#4 ++ req)
  | .cfgWrite turnaround idle dataPhase => .cmd (0x4#4 ++ 0#23 ++ BitVec.ofBool dataPhase ++ idle ++ turnaround)
  | .writeBit v => .uop (0b10#2 ++ BitVec.ofBool v)
  | .readBit => .uop 0b110
  | .clockCycle => .uop 0b010

/-- A row of spec/opcode_table.json: the word's width, and the mask and pattern its words match. -/
structure OpcodeRow where
  mnemonic : String
  width : Nat
  mask : Nat
  pattern : Nat
  deriving DecidableEq, Repr

/-- The nine rows of spec/opcode_table.json. -/
def opcodeTable : List OpcodeRow :=
  [⟨"GEN_SEQ", 44, 0xFFFFFFFFE00, 0x10000000000⟩,
   ⟨"XCHG_SEQ.OUT", 44, 0xFFFFFFFFFC0, 0x20000000000⟩,
   ⟨"XCHG_SEQ.IN", 44, 0xFFFFFFFFFC0, 0x20000000080⟩,
   ⟨"TRANSFER.RD", 44, 0xF00000000F2, 0x30000000002⟩,
   ⟨"TRANSFER.WR", 44, 0xF00000000F2, 0x30000000000⟩,
   ⟨"CFG_WRITE", 44, 0xFFFFFFE0000, 0x40000000000⟩,
   ⟨"WRITE_BIT", 3, 0x6, 0x4⟩,
   ⟨"READ_BIT", 3, 0x7, 0x6⟩,
   ⟨"CLOCK_CYCLE", 3, 0x7, 0x2⟩]

/-- Whether a word is one of the row's words. -/
def OpcodeRow.matchesWord (r : OpcodeRow) : CodeWord → Bool
  | .cmd w => r.width == 44 && w &&& BitVec.ofNat 44 r.mask == BitVec.ofNat 44 r.pattern
  | .uop w => r.width == 3 && w &&& BitVec.ofNat 3 r.mask == BitVec.ofNat 3 r.pattern

/-- The word whose bits are `w`, of `nbits` bits counted in whole bytes (log 24): a micro-operation word where it fits one byte, a
command word otherwise; none where a bit above the word's width is set. -/
def codeWordOf (nbits w : Nat) : Option CodeWord :=
  if nbits ≤ 8 then (if w < 2 ^ 3 then some (.uop (BitVec.ofNat 3 w)) else none)
  else if w < 2 ^ 44 then some (.cmd (BitVec.ofNat 44 w)) else none

/-- The operation the decoder reads from a word numbered as spec/opcode_table.json numbers it. -/
def decodeTableWord (nbits w : Nat) : Option Instr :=
  match codeWordOf nbits w with
  | some c => (decode c).toOption
  | none => none

end Sys2Proof
end

