-- ==== Sys2Proof/Machine/State.lean ====
section
/-! DEFINITION. The state of the engine (10_state.md): the four groups of R20, the two bit buffers it reaches (R40), the
command and result interface (R39), and the model's own fields (the line's samples, the record of pin events and buffer
accesses, the parameters). Plain data throughout. -/

namespace Sys2Proof.Machine

/-- `DIO_DIR`: who the protocol says drives the data line (R23). -/
inductive Dir where
  | host
  | target
  deriving DecidableEq, Repr

/-- `PHASE`, "the engine's program counter" (R25). -/
inductive Phase where
  | idle
  | seqOut
  | seqIn
  | req
  | trn1
  | ack
  | rdata
  | rpar
  | trn2Rd
  | trn2Wr
  | wdata
  | wpar
  | idlecyc
  | dummyRd
  | trn2Err
  | dummyWr
  | backoff
  deriving DecidableEq, Repr

/-- The alphabet of the pin-event trace (R12): `K0`, `K1`, `D0`/`D1`, `S0`/`S1`, `>T`/`>H`. -/
inductive PinEvent where
  | k0
  | k1
  | d (level : Bit)
  | s (level : Bit)
  | dir (way : Dir)
  deriving DecidableEq, Repr

/-- A buffer access (R51, R52), with how many pin events had occurred when it was made. -/
inductive BufAccess where
  | read (index : Nat) (eventsBefore : Nat)
  | write (index : Nat) (value : Byte) (eventsBefore : Nat)
  deriving DecidableEq, Repr

/-- What an operation returned to whoever issued it (R39, R181; log 19). -/
inductive Return where
  /-- `GEN_SEQ`, `XCHG_SEQ.OUT`, `CFG_WRITE`, `WRITE_BIT` and `CLOCK_CYCLE` return nothing. -/
  | nothing
  /-- `READ_BIT` returns the sampled bit, to the sequencer (R101). -/
  | bit (b : Bit)
  /-- `XCHG_SEQ.IN` returns bytes 0 to `count - 1` of DST (R112). -/
  | captured (count : Nat)
  /-- `TRANSFER` returns the result class and, with OK on a read, the word (R79). -/
  | transfer (res : ResultClass) (rdata : Option Word)
  deriving DecidableEq, Repr

/-- A bit buffer: byte `k` of it under the key `k`, keys strictly rising; an index that is not listed holds no value the model
knows (log 11). -/
abbrev Memory := List Host.Cell

/-- A command at the command port: its word, and the bit buffers passed beside it, if any: "one bit buffer, `SRC` when
generating, `DST` when capturing" (R39, R71; log 2). -/
structure Command where
  word : BitVec 44
  /-- The buffer the operation is to read, where the dispatcher passes one. -/
  src : Option Memory
  /-- The buffer the operation is to fill, with what it holds, where the dispatcher passes one. -/
  dst : Option Memory
  deriving DecidableEq, Repr

/-- The pin registers (R21, R22, R23). -/
structure Pins where
  clk : Bit
  dioO : Bit
  dioDir : Dir
  deriving DecidableEq, Repr

/-- The configuration registers (R26 to R29). -/
structure Cfg where
  turnaround : Nat
  idle : Nat
  dataPhase : Bit
  valid : Bit
  deriving DecidableEq, Repr

/-- The working registers (R30 to R38). -/
structure Work where
  req : BitVec 4
  data : Word
  par : Bit
  ack : BitVec 3
  res : ResultClass
  byte : Byte
  nbits : Nat
  bidx : Nat
  k : Nat
  deriving DecidableEq, Repr

/-- The state of the engine and of its interface (R20, R39, R40). -/
structure State where
  /-- Group 1: the pin registers. -/
  pins : Pins
  /-- Group 2: the configuration registers. -/
  cfg : Cfg
  /-- Group 3: the sequencer's `PHASE`. -/
  phase : Phase
  /-- Group 3: the sequencer's `CNT`, "the number of clock cycles still to be issued in the current phase" (R25). -/
  cnt : Nat
  /-- Group 4: the working registers. -/
  work : Work
  /-- `SRC`, the source bit buffer, the dispatcher's, read only (R40). -/
  src : Memory
  /-- `DST`, the destination bit buffer, the dispatcher's, write only (R40). -/
  dst : Memory
  /-- The command port: the commands the dispatcher presents, the first one now (R39; log 2). -/
  pending : List Command
  /-- A micro-operation word issued to the bit-bang driver on its own; `0b00x` is none (R80; log 3). -/
  uop : BitVec 3
  /-- The result port: what the last operation returned, or none while one is in progress (R39; log 19). -/
  ret : Option Return
  /-- The pin events so far, oldest first (R12). -/
  trace : List PinEvent
  /-- The buffer accesses so far, oldest first (R51, R52). -/
  accesses : List BufAccess
  /-- The line oracle's scripted samples, the next one first (R14). -/
  script : List Bit
  /-- How many samples have been taken (log 6). -/
  samples : Nat
  /-- How many times free values have been drawn (log 7). -/
  draws : Nat
  /-- The parameters of R9 (log 5). -/
  params : Config.Params
  deriving DecidableEq, Repr

/-- The one fault, the model's own: "No operation raises an exception, traps, aborts or halts" (R180). -/
inductive Fault where
  /-- Raised by the sequencer's step in a phase other than `P_IDLE` with `CNT = 0`, a state R25 excludes ("the phase is left when
  it reaches 0"). Safe: no run of the engine reaches such a state (log 18). -/
  | countExhausted
  deriving DecidableEq, Repr

/-- Why a command has no meaning (R195: "a command the source gives no behaviour for"). All are safe: the model says nothing of
what the block does with such a command. -/
inductive Refusal where
  /-- Raised by exec's arm of an operation without a meaning; no arm raises it. Safe. -/
  | notModelled (mnemonic : String)
  /-- Raised by every command while `PHASE` is not `P_IDLE` (R81 f, R205). Safe. -/
  | busy
  /-- Raised by `TRANSFER` while `CFG.VALID = 0` (R81 e, R29). Safe. -/
  | notConfigured
  /-- Raised by `GEN_SEQ` with `count > GEN_MAX` (R81 c, R110). Safe. -/
  | countOutOfRange
  /-- Raised by `CFG_WRITE` with `turnaround` 0 or above `TURN_MAX` (R81 d, R170). Safe. -/
  | turnaroundOutOfRange
  /-- Raised by `CFG_WRITE` with `idle > IDLE_MAX` (R81 d, R170). Safe. -/
  | idleOutOfRange
  /-- Raised by `XCHG_SEQ` with `info[6]`, or a bit the count field of the configured width leaves free, set (R81 b, R111, R112,
  R9; log 5). Safe. -/
  | reservedBit
  /-- Raised by an operation term whose direction bit is not its form's, which no word decodes to (log 16). Safe. -/
  | illFormed
  /-- Raised by the step on a word that is no operation (R80, R81 a and b). Safe. -/
  | undecodable (e : DecodeError)
  deriving DecidableEq, Repr

/-- The machine right after reset (R42, R200): the pin levels, `PHASE` and `CFG.VALID` as R42 gives them; `CNT`, the other
configuration registers and the working registers, which R42 leaves unspecified, zero (DESIGN CHOICE, unsafe, log 8); SRC and
DST, "not the engine's; untouched", with nothing listed (log 11). -/
def State.reset : State where
  pins := { clk := true, dioO := true, dioDir := .host }
  cfg := { turnaround := 0, idle := 0, dataPhase := false, valid := false }
  phase := .idle
  cnt := 0
  work := { req := 0, data := 0, par := false, ack := 0, res := .ok, byte := 0, nbits := 0, bidx := 0, k := 0 }
  src := []
  dst := []
  pending := []
  uop := 0
  ret := none
  trace := []
  accesses := []
  script := []
  samples := 0
  draws := 0
  params := Config.Params.default

end Sys2Proof.Machine
end

