-- ==== Sys2Proof/Machine/Ops.lean ====
section
/-! DEFINITION. The operations every meaning is written with: the bit buffers (20_memory.md), the pin registers and the line's
samples (10_state.md R21 to R24), the three bit-clock cycles (40_bit_primitives.md R100 to R102), the return of a result
(60_exceptions.md R180, in the place of taking an exception: R188 says there is no trap entry), the tests a command passes
before it starts (30_encoding.md R81), and fetching the next word. -/

namespace Sys2Proof.Machine

/-- What a meaning answers. -/
abbrev Result := Host.Outcome State Fault Refusal

/-! ## The bit buffers -/

/-- Byte `k` of a buffer, none where nothing is listed. -/
def Memory.read : Memory → Nat → Option Byte
  | [], _ => none
  | (a, v) :: m, k => if a = k then some v else Memory.read m k

/-- Byte `k` of a buffer becomes `v`; the keys stay strictly rising. -/
def Memory.write : Memory → Nat → Byte → Memory
  | [], k, v => [(k, v)]
  | (a, x) :: m, k, v =>
    if k < a then (k, v) :: (a, x) :: m
    else if k = a then (k, v) :: m
    else (a, x) :: Memory.write m k v

/-- The canonical form: keys strictly rising. (An index that is not listed holds no value, so no entry equals what an unlisted
index reads as.) -/
def Memory.wf : Memory → Bool
  | [] => true
  | [_] => true
  | (a, _) :: (b, y) :: m => decide (a < b) && Memory.wf ((b, y) :: m)

/-- A buffer holding the given bytes at indexes 0, 1, … -/
def Memory.ofBytes : List Byte → Nat → Memory
  | [], _ => []
  | v :: vs, k => (k, v) :: Memory.ofBytes vs (k + 1)

/-- The byte `MemRead(SRC, k, 1)` returns (R51); where the dispatcher supplied none, a free value (log 10). -/
def srcByte (k : Nat) (s : State) : Byte := (s.src.read k).getD (Config.freeSrcByte s.draws)

/-- `MemRead(SRC, k, 1)` (R51): "Reading has no side effect on the buffer". The access is recorded; a free value is drawn anew. -/
def memReadSrc (k : Nat) (s : State) : Byte × State :=
  (srcByte k s,
   { s with accesses := s.accesses ++ [.read k s.trace.length]
            draws := if (s.src.read k).isSome then s.draws else s.draws + 1 })

/-- `MemWrite(DST, k, 1, v)` (R52). -/
def memWriteDst (k : Nat) (v : Byte) (s : State) : State :=
  { s with dst := s.dst.write k v, accesses := s.accesses ++ [.write k v s.trace.length] }

/-! ## The pin registers and the line -/

/-- `CLK <- level`, event `K0` or `K1` (R12, R21). -/
def setClk (level : Bit) (s : State) : State :=
  { s with pins := { s.pins with clk := level }, trace := s.trace ++ [if level then .k1 else .k0] }

/-- `DIO_O <- level`, event `D0` or `D1` (R12, R22). -/
def setDio (level : Bit) (s : State) : State :=
  { s with pins := { s.pins with dioO := level }, trace := s.trace ++ [.d level] }

/-- `DIO_DIR <- way`, event `>H` or `>T` (R12, R23); with `HAS_DIR` false there is no such register and no such event (D3). -/
def setDir (way : Dir) (s : State) : State :=
  if s.params.hasDir then { s with pins := { s.pins with dioDir := way }, trace := s.trace ++ [.dir way] } else s

/-- The bit the next sample of the line returns (R14): the next scripted one, else a free value (log 6). -/
def nextSample (s : State) : Bit :=
  match s.script with
  | b :: _ => b
  | [] => Config.lineSample s.samples

/-- `DIO_I()`, event `S0` or `S1`: "one sample of the data line", "each call consumes the next oracle answer" (R11, R24). -/
def sampleLine (s : State) : Bit × State :=
  (nextSample s,
   { s with script := s.script.tail, samples := s.samples + 1, trace := s.trace ++ [.s (nextSample s)] })

/-! ## The bit-clock cycles (R100, R101, R102) -/

/-- `WriteBit(v)` (R100): the data line is set, then the clock pulses low and high. -/
def writeBit (v : Bit) (s : State) : State := setClk true (setClk false (setDio v s))

/-- `ReadBit()` (R101): "exactly one sample, after K0 and before K1". -/
def readBit (s : State) : Bit × State :=
  let (b, s) := sampleLine (setClk false s)
  (b, setClk true s)

/-- `ClockCycle()` (R102): the clock pulses, the data line is neither driven anew nor sampled. -/
def clockCycle (s : State) : State := setClk true (setClk false s)

/-- `repeat n: S` (R11): `S` exactly `n` times, "zero times when `n = 0`". -/
def repeatN : Nat → (State → State) → State → State
  | 0, _, s => s
  | n + 1, f, s => repeatN n f (f s)

/-- `for i in start .. start + n - 1: S(i)`, ascending. -/
def forUp (body : Nat → State → State) : Nat → Nat → State → State
  | 0, _, s => s
  | n + 1, start, s => forUp body n (start + 1) (body start s)

/-! ## The sequencer's registers and the return of a result -/

/-- `PHASE <- P_x` (R11, R25). -/
def setPhase (p : Phase) (s : State) : State := { s with phase := p }

/-- The working registers with free values in every one: "between operations each holds an unspecified value that no rule
reads" (10_state.md section 5; log 7). -/
def Work.free (n : Nat) : Work where
  req := Config.freeReq n
  data := Config.freeData n
  par := Config.freePar n
  ack := Config.freeAck n
  res := Config.freeRes n
  byte := Config.freeByte n
  nbits := Config.freeNbits n
  bidx := Config.freeBidx n
  k := Config.freeK n

/-- `PHASE <- P_IDLE; return r` (R11, R180): the operation ends, its result is delivered, the working registers hold nothing any
more, and no clock cycle is left to issue (log 13). -/
def finish (r : Return) (s : State) : State :=
  { s with phase := .idle, cnt := 0, ret := some r, work := Work.free s.draws, draws := s.draws + 1 }

/-! ## What is tested before an operation starts (R81, R187: "Refusals are tested before any pin event") -/

/-- `BUSY`, the derived bit `PHASE != P_IDLE` (R25). -/
def State.busy (s : State) : Bool := decide (s.phase ≠ .idle)

/-- A command is accepted only in `P_IDLE` (R205). -/
def whenIdle (s : State) (go : Result) : Result := if s.busy then .refused .busy else go

/-- A command is refused for the reason when the test fails. -/
def refuseIf (bad : Bool) (why : Refusal) (go : Result) : Result := if bad then .refused why else go

/-! ## The next word -/

/-- Whether a micro-operation word is issued: `0b00x` "means no micro-operation (idle)" (R80). -/
def uopPresent (u : BitVec 3) : Bool := decide (u.extractLsb' 1 2 ≠ 0)

/-- The command leaves the port, and a buffer that was passed beside it becomes the one the operation reads or fills (R39;
log 2). -/
def accept (c : Command) (rest : List Command) (s : State) : State :=
  { s with pending := rest, src := c.src.getD s.src, dst := c.dst.getD s.dst }

/-- The next word to run and the state in which it runs: a micro-operation word issued on its own (log 3), else the command
presented at the port. -/
def fetch (s : State) : Option (CodeWord × State) :=
  if uopPresent s.uop then some (.uop s.uop, { s with uop := 0 })
  else match s.pending with
    | c :: rest => some (.cmd c.word, accept c rest s)
    | [] => none

end Sys2Proof.Machine
end

