-- ==== Sys2Proof/Machine/Flags.lean ====
section
/-! DEFINITION. Parity (00_scope.md R10, 30_encoding.md R84), the running parity flag PAR (10_state.md R32), the classification
of the acknowledgement (42_transfer.md R134) and the result codes (30_encoding.md R79). -/

namespace Sys2Proof.Machine

/-- The exclusive-or of bits 0 to `n - 1` of a value. -/
def parityLow {w : Nat} (v : BitVec w) : Nat → Bit
  | 0 => false
  | n + 1 => parityLow v n ^^ v.getLsbD n

/-- `parity(v)`: "the exclusive-or of its `n` bits, equivalently the number of 1 bits modulo 2" (R10). -/
def parity {w : Nat} (v : BitVec w) : Bit := parityLow v w

/-- `PAR <- v`. -/
def setPar (v : Bit) (s : State) : State := { s with work := { s.work with par := v } }

/-- `PAR <- PAR ^ b` (R32). -/
def foldPar (b : Bit) (s : State) : State := { s with work := { s.work with par := s.work.par ^^ b } }

/-- `class(ACK)` (R134): "exact, not a priority decode". -/
def classOf (ack : BitVec 3) : ResultClass :=
  if ack = 0b001 then .ok
  else if ack = 0b010 then .wait
  else if ack = 0b100 then .fault
  else .protocolError ack

/-- `RES <- c`. -/
def setRes (c : ResultClass) (s : State) : State := { s with work := { s.work with res := c } }

/-- The 4-bit value of `RES` (R79, R181); the value of PARITY_ERROR is the parameter `RES_PARITY_ERROR` (R9). -/
def resCode (p : Config.Params) : ResultClass → BitVec 4
  | .ok => 0b0001
  | .wait => 0b0010
  | .fault => 0b0100
  | .parityError => p.resParityError
  | .protocolError pattern => pattern.setWidth 4

end Sys2Proof.Machine
end

