-- ==== Sys2Proof/Machine/Operands.lean ====
section
/-! DEFINITION. The operand forms: the bit count of XCHG_SEQ (30_encoding.md R78), the request packet (R73, R74), and the
bits of registers that the phases write one by one (10_state.md R31, R33, R35). -/

namespace Sys2Proof.Machine

/-- The clock-count field, the low `XCHG_COUNT_BITS` bits of the info byte: `info[5:0]` with the width 6 (R77, R9). -/
def clkField (p : Config.Params) (info : BitVec 8) : Nat := (info.extractLsb' 0 p.xchgCountBits.val).toNat

/-- Whether a bit of the info byte between the count field and the capture bit is set: `info[6]` with the width 6 (R77); with a
narrower field the bits it leaves free too (log 5). -/
def infoReserved (p : Config.Params) (info : BitVec 8) : Bool := decide (info.setWidth 7 >>> p.xchgCountBits.val ≠ 0)

/-- The number of bits an `XCHG_SEQ` moves (R78): "`n = 64` when `clk = 0`, otherwise `n = clk`". -/
def xchgCount (p : Config.Params) (info : BitVec 8) : Nat :=
  if clkField p info = 0 then Config.xchgZeroMeans else clkField p info

/-- `rnw = REQ[1]` (R72). -/
def State.rnw (s : State) : Bit := s.work.req.getLsbD 1

/-- The request packet as a byte, wire position `i` at bit `i` (R73): `pkt = 0x81 | (req << 1) | (PAR << 5)`. -/
def packet (req : BitVec 4) : BitVec 8 :=
  0x81#8 ||| (req.setWidth 8 <<< 1) ||| ((BitVec.ofBool (parity req)).setWidth 8 <<< 5)

/-- Bit `i` of a value replaced by `b`, as in `DATA[i] <- b`. -/
def setBit {w : Nat} (v : BitVec w) (i : Nat) (b : Bit) : BitVec w :=
  (v &&& ~~~(1#w <<< i)) ||| ((BitVec.ofBool b).setWidth w <<< i)

/-- `DATA[i] <- b`. -/
def setDataBit (i : Nat) (b : Bit) (s : State) : State :=
  { s with work := { s.work with data := setBit s.work.data i b } }

/-- `ACK[i] <- b`. -/
def setAckBit (i : Nat) (b : Bit) (s : State) : State :=
  { s with work := { s.work with ack := setBit s.work.ack i b } }

/-- `BYTE <- (BYTE >> 1) | (b << 7)` (R112). -/
def shiftIn (byte : Byte) (b : Bit) : Byte := (byte >>> 1) ||| ((BitVec.ofBool b).setWidth 8 <<< 7)

end Sys2Proof.Machine
end

