-- ==== Sys2Proof/Machine/Bits.lean ====
section
/-! DEFINITION. The meanings of the three micro-operations (40_bit_primitives.md). Each is exactly one clock cycle; each runs in
every phase, since the sequencer issues it. -/

namespace Sys2Proof.Machine

/-- What a micro-operation returned to the sequencer (log 19). -/
def returned (r : Return) (s : State) : State := { s with ret := some r }

/-- `WRITE_BIT(v)` (R100). -/
def execWriteBit (v : Bit) (s : State) : Result := .next (returned .nothing (writeBit v s))

/-- `READ_BIT` (R101): returns the sampled bit. -/
def execReadBit (s : State) : Result := .next (returned (.bit (readBit s).1) (readBit s).2)

/-- `CLOCK_CYCLE` (R102). -/
def execClockCycle (s : State) : Result := .next (returned .nothing (clockCycle s))

end Sys2Proof.Machine
end

