-- ==== Sys2Proof/Machine/Configure.lean ====
section
/-! DEFINITION. The configuration write (43_configuration.md). -/

namespace Sys2Proof.Machine

/-- `CFG_WRITE(turnaround, idle, data_phase)` (R170): the four configuration registers at once, no pin event, nothing returned. -/
def execCfgWrite (turnaround idle : BitVec 8) (dataPhase : Bit) (s : State) : Result :=
  whenIdle s <|
  refuseIf (decide (turnaround.toNat = 0) || decide (s.params.turnMax < turnaround.toNat)) .turnaroundOutOfRange <|
  refuseIf (decide (s.params.idleMax < idle.toNat)) .idleOutOfRange <|
  .next { s with cfg := { turnaround := turnaround.toNat, idle := idle.toNat, dataPhase := dataPhase, valid := true }
                 ret := some .nothing }

end Sys2Proof.Machine
end

