-- ==== Sys2Proof/Machine/Sequence.lean ====
section
/-! DEFINITION. The sequence transceiver: GEN_SEQ, XCHG_SEQ.OUT and XCHG_SEQ.IN (41_sequence.md). -/

namespace Sys2Proof.Machine

/-- The start of a sequence of `n` bits (R110, R111, R112): the phase and the direction of the line, then `NBITS <- n`,
`BIDX <- 0`, `K <- 0` (for a capture the last is the model's, log 12). -/
def beginSeq (p : Phase) (way : Dir) (n : Nat) (s : State) : State :=
  let s := setDir way (setPhase p s)
  { s with work := { s.work with nbits := n, bidx := 0, k := 0 } }

/-- `if K == 0: BYTE <- MemRead(SRC, BIDX, 1); BIDX <- BIDX + 1; K <- 8` (R110). -/
def loadByte (s : State) : State :=
  if s.work.k = 0 then
    let (v, s) := memReadSrc s.work.bidx s
    { s with work := { s.work with byte := v, bidx := s.work.bidx + 1, k := 8 } }
  else s

/-- One turn of the output loop of R110: load a byte when one is due, `WriteBit(BYTE[0])`, shift. -/
def outBit (s : State) : State :=
  let s := loadByte s
  let s := writeBit (s.work.byte.getLsbD 0) s
  { s with work := { s.work with byte := s.work.byte >>> 1, k := s.work.k - 1, nbits := s.work.nbits - 1 } }

/-- `BYTE <- 0; K <- 8` at the start of each captured byte (R112). -/
def clearByte (s : State) : State :=
  if s.work.k = 0 then { s with work := { s.work with byte := 0, k := 8 } } else s

/-- `BYTE <- BYTE >> K; MemWrite(DST, BIDX, 1, BYTE); BIDX <- BIDX + 1` after the last bit of each captured byte, where `K` is
"the number of unused high bits" (R112, R38). -/
def storeByte (s : State) : State :=
  if s.work.k = 0 ∨ s.work.nbits = 0 then
    let s := { s with work := { s.work with byte := s.work.byte >>> s.work.k } }
    let s := memWriteDst s.work.bidx s.work.byte s
    { s with work := { s.work with bidx := s.work.bidx + 1 } }
  else s

/-- `b <- ReadBit(); BYTE <- (BYTE >> 1) | (b << 7); K <- K - 1; NBITS <- NBITS - 1` (R112). -/
def captureBit (s : State) : State :=
  let (b, s) := readBit s
  { s with work := { s.work with byte := shiftIn s.work.byte b, k := s.work.k - 1, nbits := s.work.nbits - 1 } }

/-- One turn of the capture loops of R112, the outer loop's start and end of a byte around the inner loop's body. -/
def inBit (s : State) : State := storeByte (captureBit (clearByte s))

/-- The output sequence of `n` bits that `GEN_SEQ` and `XCHG_SEQ.OUT` share (R111: "The body is that of GEN_SEQ (rule R110) with
`n` in place of `count`"). -/
def sequenceOut (n : Nat) (s : State) : State :=
  finish .nothing (repeatN n outBit (beginSeq .seqOut .host n s))

/-- The capture of `n` bits (R112). -/
def sequenceIn (n : Nat) (s : State) : State :=
  let s := repeatN n inBit (beginSeq .seqIn .target n s)
  finish (.captured s.work.bidx) s

/-- `GEN_SEQ(count, SRC)` (R110). -/
def execGenSeq (count : BitVec 9) (s : State) : Result :=
  whenIdle s <|
  refuseIf (decide (s.params.genMax < count.toNat)) .countOutOfRange <|
  .next (sequenceOut count.toNat s)

/-- `XCHG_SEQ.OUT(info, SRC)` (R111). -/
def execXchgSeqOut (info : BitVec 8) (s : State) : Result :=
  whenIdle s <|
  refuseIf (infoReserved s.params info) .reservedBit <|
  refuseIf (info.getLsbD 7) .illFormed <|
  .next (sequenceOut (xchgCount s.params info) s)

/-- `XCHG_SEQ.IN(info) -> DST` (R112). -/
def execXchgSeqIn (info : BitVec 8) (s : State) : Result :=
  whenIdle s <|
  refuseIf (infoReserved s.params info) .reservedBit <|
  refuseIf (!info.getLsbD 7) .illFormed <|
  .next (sequenceIn (xchgCount s.params info) s)

end Sys2Proof.Machine
end

