-- ==== Sys2Proof/Machine/Transfer.lean ====
section
/-! DEFINITION. The transfer engine (42_transfer.md): request formatter, turnarounds, ACK sampler, data phase, parity check,
idle cycles, bus recovery, and the two operations TRANSFER.RD and TRANSFER.WR. Each procedure is the rule's of the same name. -/

namespace Sys2Proof.Machine

/-- `WriteBit(b); PAR <- PAR ^ b`. -/
def writeBitPar (b : Bit) (s : State) : State := foldPar b (writeBit b s)

/-- `SendRequest()` (R131). -/
def sendRequest (s : State) : State :=
  let s := setPhase .req s
  let s := setDir .host s
  let s := setPar false s
  let s := writeBit true s
  let s := writeBitPar (s.work.req.getLsbD 0) s
  let s := writeBitPar (s.work.req.getLsbD 1) s
  let s := writeBitPar (s.work.req.getLsbD 2) s
  let s := writeBitPar (s.work.req.getLsbD 3) s
  let s := writeBit s.work.par s
  let s := writeBit false s
  writeBit true s

/-- `Turnaround1()` (R132). -/
def turnaround1 (s : State) : State :=
  let s := setDio true s
  let s := setDir .target s
  let s := setPhase .trn1 s
  repeatN s.cfg.turnaround clockCycle s

/-- `ACK[i] <- ReadBit()` (R133). -/
def readAckBit (i : Nat) (s : State) : State :=
  let (b, s) := readBit s
  setAckBit i b s

/-- `SampleAck()` (R133). -/
def sampleAck (s : State) : State :=
  let s := setPhase .ack s
  readAckBit 2 (readAckBit 1 (readAckBit 0 s))

/-- `b <- ReadBit(); DATA[i] <- b; PAR <- PAR ^ b` (R136). -/
def readDataBit (i : Nat) (s : State) : State :=
  let (b, s) := readBit s
  foldPar b (setDataBit i b s)

/-- `DATA <- w`. -/
def setData (w : Word) (s : State) : State := { s with work := { s.work with data := w } }

/-- `ReadData()` (R136). -/
def readData (s : State) : State :=
  let s := setPhase .rdata s
  let s := setPar false (setData 0 s)
  forUp readDataBit Config.dataBits 0 s

/-- `p <- ReadBit(); RES <- (p == PAR) ? OK : PARITY_ERROR` (R137). -/
def readParBit (s : State) : State :=
  let (p, s) := readBit s
  if p = s.work.par then setRes .ok s else setRes .parityError s

/-- `CheckParity()` (R137). -/
def checkParity (s : State) : State := readParBit (setPhase .rpar s)

/-- `Turnaround2Read()` (R138). -/
def turnaround2Read (s : State) : State :=
  let s := setPhase .trn2Rd s
  let s := repeatN s.cfg.turnaround clockCycle s
  setDio true (setDir .host s)

/-- `Turnaround2Write()` (R139). -/
def turnaround2Write (s : State) : State :=
  let s := setPhase .trn2Wr s
  let s := repeatN s.cfg.turnaround clockCycle s
  setDir .host s

/-- `WriteBit(DATA[i]); PAR <- PAR ^ DATA[i]` (R140). -/
def writeDataBit (i : Nat) (s : State) : State := writeBitPar (s.work.data.getLsbD i) s

/-- `WriteData()` (R140). -/
def writeData (s : State) : State :=
  let s := setPhase .wdata s
  let s := setPar false s
  forUp writeDataBit Config.dataBits 0 s

/-- `WriteParity()` (R141). -/
def writeParity (s : State) : State :=
  let s := setPhase .wpar s
  let s := writeBit s.work.par s
  setRes .ok s

/-- `IdleCycles()` (R145): "With `I = 0` it does nothing at all". -/
def idleCycles (s : State) : State :=
  if 0 < s.cfg.idle then
    let s := setPhase .idlecyc s
    let s := setDio false s
    repeatN s.cfg.idle clockCycle s
  else s

/-- The word is "present iff read and ackCode==OK" (R146, D13). -/
def State.rdata (s : State) : Option Word := if s.rnw = true ∧ s.work.res = .ok then some s.work.data else none

/-- `FinishOk()` (R146). -/
def finishOk (s : State) : State :=
  let s := setDio true s
  finish (.transfer s.work.res s.rdata) s

/-- `return (RES, none)` with the line restored to idle-high (R147, R148). -/
def finishError (s : State) : State :=
  let s := setDio true s
  finish (.transfer s.work.res none) s

/-- `RES <- zext_4(ACK)` (R147, R148), as a class (log 21). -/
def resFromAck (s : State) : State := setRes (classOf s.work.ack) s

/-- The dummy data block of a read, before the trailing turnaround, the line still released (R147). -/
def dummyRead (s : State) : State :=
  if s.cfg.dataPhase = true ∧ s.rnw = true then repeatN Config.phaseBits clockCycle (setPhase .dummyRd s) else s

/-- The trailing turnaround of the WAIT and FAULT branch (R147). -/
def turnaround2Error (s : State) : State :=
  let s := setPhase .trn2Err s
  let s := repeatN s.cfg.turnaround clockCycle s
  setDir .host s

/-- The dummy data block of a write, after the trailing turnaround, the engine driving (R147, D15). -/
def dummyWrite (s : State) : State :=
  if s.cfg.dataPhase = true ∧ s.rnw = false then
    let s := setPhase .dummyWr s
    let s := setDio s.params.dummyWriteLevel s
    repeatN Config.phaseBits clockCycle s
  else s

/-- `RecoverWaitFault()` (R147). -/
def recoverWaitFault (s : State) : State :=
  finishError (dummyWrite (turnaround2Error (dummyRead (resFromAck s))))

/-- `RecoverProtocolError()` (R148): "a single combined back-off clock burst of length `turnaround_cycles + 33`". -/
def recoverProtocolError (s : State) : State :=
  let s := setPhase .backoff (resFromAck s)
  let s := repeatN (s.cfg.turnaround + Config.phaseBits) clockCycle s
  finishError (setDir .host s)

/-- `REQ <- req` (R130). -/
def setReq (req : BitVec 4) (s : State) : State := { s with work := { s.work with req := req } }

/-- The part before the branch (R130): request, first turnaround, acknowledgement. -/
def requestAndAck (s : State) : State := sampleAck (turnaround1 (sendRequest s))

/-- The three branches (R135), `okBranch` the one after an OK acknowledgement. -/
def branchOnAck (okBranch : State → State) (s : State) : State :=
  match classOf s.work.ack with
  | .ok => okBranch s
  | .wait => recoverWaitFault s
  | .fault => recoverWaitFault s
  | .parityError => recoverProtocolError s
  | .protocolError _ => recoverProtocolError s

/-- The OK branch of a read (R150): R136, R137, R138, R145, R146. -/
def okRead (s : State) : State := finishOk (idleCycles (turnaround2Read (checkParity (readData s))))

/-- The OK branch of a write (R151): R139, R140, R141, R145, R146. -/
def okWrite (s : State) : State := finishOk (idleCycles (writeParity (writeData (turnaround2Write s))))

/-- `TRANSFER.RD(req)` (R150), once accepted. -/
def transferRead (req : BitVec 4) (s : State) : State := branchOnAck okRead (requestAndAck (setReq req s))

/-- `TRANSFER.WR(req, wdata)` (R151), once accepted. -/
def transferWrite (req : BitVec 4) (wdata : Word) (s : State) : State :=
  branchOnAck okWrite (requestAndAck (setData wdata (setReq req s)))

/-- `TRANSFER.RD(req)` (R150). -/
def execTransferRd (req : BitVec 4) (s : State) : Result :=
  whenIdle s <|
  refuseIf (!s.cfg.valid) .notConfigured <|
  refuseIf (!req.getLsbD 1) .illFormed <|
  .next (transferRead req s)

/-- `TRANSFER.WR(req, wdata)` (R151). -/
def execTransferWr (req : BitVec 4) (wdata : Word) (s : State) : Result :=
  whenIdle s <|
  refuseIf (!s.cfg.valid) .notConfigured <|
  refuseIf (req.getLsbD 1) .illFormed <|
  .next (transferWrite req wdata s)

end Sys2Proof.Machine
end

