-- ==== Sys2Proof/Machine/Dispatch.lean ====
section
/-! DEFINITION. The meaning of every operation, one arm per row of spec/opcode_table.json. -/

namespace Sys2Proof.Machine

def exec (i : Instr) (s : State) : Host.Outcome State Fault Refusal :=
  match i with
  | .genSeq count => Sys2Proof.Machine.execGenSeq count s
  | .xchgSeqOut info => Sys2Proof.Machine.execXchgSeqOut info s
  | .xchgSeqIn info => Sys2Proof.Machine.execXchgSeqIn info s
  | .transferRd req => Sys2Proof.Machine.execTransferRd req s
  | .transferWr req wdata => Sys2Proof.Machine.execTransferWr req wdata s
  | .cfgWrite turnaround idle dataPhase => Sys2Proof.Machine.execCfgWrite turnaround idle dataPhase s
  | .writeBit v => Sys2Proof.Machine.execWriteBit v s
  | .readBit => Sys2Proof.Machine.execReadBit s
  | .clockCycle => Sys2Proof.Machine.execClockCycle s

end Sys2Proof.Machine
end

