-- ==== Sys2Proof/Machine/Sequencer.lean ====
section
/-! DEFINITION. The sequencer as the phase machine of 41_sequence.md R113 and 42_transfer.md R152: in every phase but P_IDLE one
micro-operation per step, CNT counting the steps left, entry and exit actions at the ends of a phase. It is a second
description of the operations ("The table says the same as rules R130 to R148 and adds nothing"), and what a step does from a
state in the middle of an operation. -/

namespace Sys2Proof.Machine

/-- The `CNT` load of each transfer phase (R152). For the sequence phases "`CNT` is `NBITS`" (R113). -/
def cntLoad (p : Phase) (s : State) : Nat :=
  match p with
  | .idle => 0
  | .seqOut => s.work.nbits
  | .seqIn => s.work.nbits
  | .req => 8
  | .trn1 => s.cfg.turnaround
  | .ack => 3
  | .rdata => 32
  | .rpar => 1
  | .trn2Rd => s.cfg.turnaround
  | .trn2Wr => s.cfg.turnaround
  | .wdata => 32
  | .wpar => 1
  | .idlecyc => s.cfg.idle
  | .dummyRd => 33
  | .trn2Err => s.cfg.turnaround
  | .dummyWr => 33
  | .backoff => s.cfg.turnaround + 33

/-- The entry actions of each transfer phase (R152). -/
def entryActions (p : Phase) (s : State) : State :=
  match p with
  | .idle => s
  | .seqOut => s
  | .seqIn => s
  | .req => setPar false (setDir .host s)
  | .trn1 => setDir .target (setDio true s)
  | .ack => s
  | .rdata => setPar false (setData 0 s)
  | .rpar => s
  | .trn2Rd => s
  | .trn2Wr => s
  | .wdata => setPar false s
  | .wpar => s
  | .idlecyc => setDio false s
  | .dummyRd => resFromAck s
  | .trn2Err => resFromAck s
  | .dummyWr => setDio s.params.dummyWriteLevel s
  | .backoff => resFromAck s

/-- The sequencer enters a phase: `PHASE`, the entry actions, the load of `CNT`. -/
def enterPhase (p : Phase) (s : State) : State := { entryActions p s with phase := p, cnt := cntLoad p s }

/-- `k`, "the number of steps already done in the phase" (R152), of a phase of the given length. -/
def stepsDone (length : Nat) (s : State) : Nat := length - s.cnt

/-- The micro-operation of `P_REQ`: `WriteBit(pkt[k])` (R152); wire positions 1 to 4 are folded into `PAR` (R32, log 23). -/
def requestBit (s : State) : State :=
  let k := stepsDone 8 s
  let b := (packet s.work.req).getLsbD k
  if 1 ≤ k ∧ k ≤ 4 then writeBitPar b s else writeBit b s

/-- The micro-operation of each phase with what it does to the working registers (R152, R113). -/
def phaseCycle (s : State) : State :=
  match s.phase with
  | .idle => s
  | .seqOut => outBit s
  | .seqIn => inBit s
  | .req => requestBit s
  | .trn1 => clockCycle s
  | .ack => readAckBit (stepsDone 3 s) s
  | .rdata => readDataBit (stepsDone 32 s) s
  | .rpar => readParBit s
  | .trn2Rd => clockCycle s
  | .trn2Wr => clockCycle s
  | .wdata => writeDataBit (stepsDone 32 s) s
  | .wpar => setRes .ok (writeBit s.work.par s)
  | .idlecyc => clockCycle s
  | .dummyRd => clockCycle s
  | .trn2Err => clockCycle s
  | .dummyWr => clockCycle s
  | .backoff => clockCycle s

/-- `I > 0: P_IDLECYC; else P_IDLE with D1, return` (R152). -/
def idleOrEnd (s : State) : State := if 0 < s.cfg.idle then enterPhase .idlecyc s else finishOk s

/-- The next phase after `P_ACK` (R152). -/
def afterAck (s : State) : State :=
  match classOf s.work.ack with
  | .ok => if s.rnw then enterPhase .rdata s else enterPhase .trn2Wr s
  | .wait => if s.cfg.dataPhase ∧ s.rnw then enterPhase .dummyRd s else enterPhase .trn2Err s
  | .fault => if s.cfg.dataPhase ∧ s.rnw then enterPhase .dummyRd s else enterPhase .trn2Err s
  | .parityError => enterPhase .backoff s
  | .protocolError _ => enterPhase .backoff s

/-- The next phase after `P_TRN2_ERR` (R152). -/
def afterErrorTurnaround (s : State) : State :=
  if s.cfg.dataPhase = true ∧ s.rnw = false then enterPhase .dummyWr s else finishError s

/-- The exit actions of each phase and the way to the next (R152, R113). -/
def exitPhase (s : State) : State :=
  match s.phase with
  | .idle => s
  | .seqOut => finish .nothing s
  | .seqIn => finish (.captured s.work.bidx) s
  | .req => enterPhase .trn1 s
  | .trn1 => enterPhase .ack s
  | .ack => afterAck s
  | .rdata => enterPhase .rpar s
  | .rpar => enterPhase .trn2Rd s
  | .trn2Rd => idleOrEnd (setDio true (setDir .host s))
  | .trn2Wr => enterPhase .wdata (setDir .host s)
  | .wdata => enterPhase .wpar s
  | .wpar => idleOrEnd s
  | .idlecyc => finishOk s
  | .dummyRd => enterPhase .trn2Err s
  | .trn2Err => afterErrorTurnaround (setDir .host s)
  | .dummyWr => finishError s
  | .backoff => finishError (setDir .host s)

/-- One step of the sequencer (R25: "exactly one micro-operation, hence exactly one clock cycle, is performed per step"): the
phase's micro-operation, `CNT` down by one, and at 0 the exit. A count of 0 before the step is the fault of log 18. -/
def sequencerStep (s : State) : Result :=
  if s.cnt = 0 then .fault .countExhausted
  else
    let s' := { phaseCycle s with cnt := s.cnt - 1 }
    .next (if s.cnt = 1 then exitPhase s' else s')

/-- At most `n` steps of the sequencer, stopping in `P_IDLE`. -/
def runSequencer : Nat → State → Result
  | 0, s => .next s
  | n + 1, s =>
    if s.busy then
      match sequencerStep s with
      | .next s' => runSequencer n s'
      | .fault r => .fault r
      | .refused r => .refused r
    else .next s

/-- A sequence operation leaves `P_IDLE` (R113: "`GEN_SEQ` with `count = 0` stays in `P_IDLE`"). -/
def startSequence (p : Phase) (way : Dir) (n : Nat) (s : State) : State :=
  let s := { beginSeq p way n s with cnt := n }
  if n = 0 then finish .nothing s else s

/-- A command leaves `P_IDLE` (R113, R152: "on `TRANSFER`: load `REQ`, `DATA`"). Of a command only, and of one that is
not refused. -/
def startCommand (i : Instr) (s : State) : State :=
  let s := { s with ret := none }
  match i with
  | .genSeq count => startSequence .seqOut .host count.toNat s
  | .xchgSeqOut info => startSequence .seqOut .host (xchgCount s.params info) s
  | .xchgSeqIn info => startSequence .seqIn .target (xchgCount s.params info) s
  | .transferRd req => enterPhase .req (setReq req s)
  | .transferWr req wdata => enterPhase .req (setData wdata (setReq req s))
  | .cfgWrite _ _ _ => s
  | .writeBit _ => s
  | .readBit => s
  | .clockCycle => s

/-- The micro-operation word the sequencer issues in its next step (R80): `0b10v`, `0b110` or `0b010`; `0b000` in `P_IDLE`. -/
def uopOf (s : State) : BitVec 3 :=
  match s.phase with
  | .idle => 0b000
  | .seqOut => 0b10#2 ++ BitVec.ofBool ((loadByte s).work.byte.getLsbD 0)
  | .seqIn => 0b110
  | .req => 0b10#2 ++ BitVec.ofBool ((packet s.work.req).getLsbD (stepsDone 8 s))
  | .trn1 => 0b010
  | .ack => 0b110
  | .rdata => 0b110
  | .rpar => 0b110
  | .trn2Rd => 0b010
  | .trn2Wr => 0b010
  | .wdata => 0b10#2 ++ BitVec.ofBool (s.work.data.getLsbD (stepsDone 32 s))
  | .wpar => 0b10#2 ++ BitVec.ofBool s.work.par
  | .idlecyc => 0b010
  | .dummyRd => 0b010
  | .trn2Err => 0b010
  | .dummyWr => 0b010
  | .backoff => 0b010

end Sys2Proof.Machine
end

