-- ==== Sys2Proof/Machine/Step.lean ====
section
/-! DEFINITION. One step of the machine. A command or a micro-operation that is presented runs whole (70_reset_and_hazards.md
R210: "a step of the engine is one pin event (or one micro-operation, or one whole operation, at the modeller's choice)"); with
nothing presented the sequencer goes on with the operation in progress, and in P_IDLE "the engine waits" (R200). -/

namespace Sys2Proof.Machine

/-- One step (log 1, log 15). -/
def step (s : State) : Host.Outcome State Fault Refusal :=
  match fetch s with
  | some (w, s') =>
    match decode w with
    | .ok i => exec i s'
    | .error e => .refused (.undecodable e)
  | none => if s.busy then sequencerStep s else .next s

/-- The state with the word placed where `step` takes its next one from: a micro-operation word in the sequencer's issue latch,
a command word at the head of the command port (log 4). A word wider than its kind stands as a word the decoder refuses. -/
def State.withFetchWord (s : State) (nbits w : Nat) : State :=
  if nbits ≤ 8 then { s with uop := if w < 2 ^ 3 then BitVec.ofNat 3 w else 0b111 }
  else { s with uop := 0
                pending := { word := if w < 2 ^ 44 then BitVec.ofNat 44 w else 0, src := none, dst := none } :: s.pending }

end Sys2Proof.Machine
end

