-- ==== Sys2Proof/Safety.lean ====
section
/-! DEFINITION. The terms claims are stated in: the pin events of each clock cycle and of runs of them (00_scope.md R12), the
samples a run will take (R14), the number of clock cycles of a trace, what a trace says of the lines, and the invariant of the
machine (10_state.md R21, R25 to R29; 42_transfer.md R152, R155). -/

namespace Sys2Proof.Machine

/-! ## Pin events -/

/-- The events of `WRITE_BIT(b)` (R100). -/
def writeEvents (b : Bit) : List PinEvent := [.d b, .k0, .k1]

/-- The events of a `READ_BIT` whose sample was `b` (R101). -/
def readEvents (b : Bit) : List PinEvent := [.k0, .s b, .k1]

/-- The events of `n` times `CLOCK_CYCLE` (R102). -/
def cycleEvents (n : Nat) : List PinEvent := (List.replicate n [PinEvent.k0, PinEvent.k1]).flatten

/-- The event `>H` or `>T`; none where `HAS_DIR` is false (R12). -/
def dirEvents (p : Config.Params) (way : Dir) : List PinEvent := if p.hasDir then [.dir way] else []

/-- `DIO_DIR` after it was written; without the register it is what it was (R23). -/
def dirAfter (s : State) (way : Dir) : Dir := if s.params.hasDir then way else s.pins.dioDir

/-- The bits of a value, bit 0 first: the order of everything on the wire (R53). -/
def bitsOf {w : Nat} (v : BitVec w) : List Bit := (List.range w).map v.getLsbD

/-- Bit `i` of the sequence a bit buffer holds (R50). -/
def seqBit (bytes : Nat → Byte) (i : Nat) : Bit := (bytes (i / 8)).getLsbD (i % 8)

/-- The first `n` bits of the sequence a bit buffer holds. -/
def seqBits (bytes : Nat → Byte) (n : Nat) : List Bit := (List.range n).map (seqBit bytes)

/-- The `i`-th of the samples the engine will take from this state on (R14): the script first, then the free input. -/
def sampleAt (s : State) (i : Nat) : Bit := (s.script[i]?).getD (Config.lineSample (s.samples + i))

/-- The first `n` of them. -/
def samplesFrom (s : State) (n : Nat) : List Bit := (List.range n).map (sampleAt s)

/-- The acknowledgement a transfer started here will sample (R75). -/
def ackAhead (s : State) : BitVec 3 :=
  BitVec.ofBool (sampleAt s 2) ++ BitVec.ofBool (sampleAt s 1) ++ BitVec.ofBool (sampleAt s 0)

/-- The number of clock cycles of a trace, one `K0` each (R12). -/
def cycles (t : List PinEvent) : Nat := t.count .k0

/-- Whether `K0` and `K1` alternate from the given clock level on and the clock ends high (R103). -/
def clockAlternates : Bit → List PinEvent → Bool
  | level, [] => level
  | level, .k0 :: t => level && clockAlternates false t
  | level, .k1 :: t => !level && clockAlternates true t
  | level, .d _ :: t => clockAlternates level t
  | level, .s _ :: t => clockAlternates level t
  | level, .dir _ :: t => clockAlternates level t

/-- `DIO_DIR` and `DIO_O` during each clock cycle of a trace, oldest first (R155). -/
def linePerCycle : Dir → Bit → List PinEvent → List (Dir × Bit)
  | _, _, [] => []
  | dir, level, .k0 :: t => (dir, level) :: linePerCycle dir level t
  | dir, level, .k1 :: t => linePerCycle dir level t
  | dir, _, .d b :: t => linePerCycle dir b t
  | dir, level, .s _ :: t => linePerCycle dir level t
  | _, level, .dir way :: t => linePerCycle way level t

/-- A trace without the events that write "a pin register with the value it already holds" (R12, D4). -/
def effective : Pins → List PinEvent → List PinEvent
  | _, [] => []
  | p, .k0 :: t => if p.clk = false then effective p t else .k0 :: effective { p with clk := false } t
  | p, .k1 :: t => if p.clk = true then effective p t else .k1 :: effective { p with clk := true } t
  | p, .d b :: t => if p.dioO = b then effective p t else .d b :: effective { p with dioO := b } t
  | p, .s b :: t => .s b :: effective p t
  | p, .dir way :: t => if p.dioDir = way then effective p t else .dir way :: effective { p with dioDir := way } t

/-- The pin registers after a trace: each event writes the register it names (R12). -/
def replayPins : Pins → List PinEvent → Pins
  | p, [] => p
  | p, .k0 :: t => replayPins { p with clk := false } t
  | p, .k1 :: t => replayPins { p with clk := true } t
  | p, .d b :: t => replayPins { p with dioO := b } t
  | p, .s _ :: t => replayPins p t
  | p, .dir way :: t => replayPins { p with dioDir := way } t

/-- The bits a trace drove with `WRITE_BIT`, in order: a data event at once followed by `K0`, which in the trace of a sequence operation is a
`WRITE_BIT` and nothing else (what the loopback fixture of D22 records). -/
def drivenBits : List PinEvent → List Bit
  | .d b :: .k0 :: t => b :: drivenBits t
  | _ :: t => drivenBits t
  | [] => []

/-! ## The wire formats, from the rules -/

/-- The request packet in wire order (R73): start, `APnDP`, `RnW`, `A2`, `A3`, parity, stop, park, the parity bit as R74 gives it. -/
def packetBits (req : BitVec 4) : List Bit :=
  [true, req.getLsbD 0, req.getLsbD 1, req.getLsbD 2, req.getLsbD 3,
   req.getLsbD 0 ^^ req.getLsbD 1 ^^ req.getLsbD 2 ^^ req.getLsbD 3, false, true]

/-- The number of 1 bits of a list. -/
def ones (bs : List Bit) : Nat := bs.count true

/-- The events of a transfer up to the third acknowledgement sample (R131, R132, R133). -/
def openingTrace (req : BitVec 4) (s : State) : List PinEvent :=
  dirEvents s.params .host ++ (packetBits req).flatMap writeEvents ++
  [.d true] ++ dirEvents s.params .target ++ cycleEvents s.cfg.turnaround ++
  (samplesFrom s 3).flatMap readEvents

/-- The events of the idle cycles (R145). -/
def idleTrace (s : State) : List PinEvent := if s.cfg.idle = 0 then [] else .d false :: cycleEvents s.cfg.idle

/-- The word a read started here will sample (R136): the samples after the acknowledgement, bit 0 first. -/
def IsWordAhead (s : State) (w : Word) : Prop := ∀ i, i < 32 → w.getLsbD i = sampleAt s (3 + i)

/-- Bit `i` of a capture of `n` bits started here (R112): "`s[8j + m]` if `8j + m < n`, else 0". -/
def capturedBit (s : State) (n i : Nat) : Bit := decide (i < n) && sampleAt s i

/-- Byte `j` of that capture, bit `m` of it at position `m`. -/
def capturedByte (s : State) (n j : Nat) : Byte :=
  let b (m : Nat) : BitVec 1 := BitVec.ofBool (capturedBit s n (8 * j + m))
  b 7 ++ b 6 ++ b 5 ++ b 4 ++ b 3 ++ b 2 ++ b 1 ++ b 0

/-- The length in clock cycles of a transfer with this acknowledgement (the table of R82). -/
def transferCycles (c : Cfg) : ResultClass → Nat
  | .ok => 44 + 2 * c.turnaround + c.idle
  | .wait => if c.dataPhase then 44 + 2 * c.turnaround else 11 + 2 * c.turnaround
  | .fault => if c.dataPhase then 44 + 2 * c.turnaround else 11 + 2 * c.turnaround
  | .parityError => 44 + 2 * c.turnaround
  | .protocolError _ => 44 + 2 * c.turnaround

/-- The length in clock cycles of an operation started here (R82; one cycle for a micro-operation, R100 to R102). -/
def frameLength (i : Instr) (s : State) : Nat :=
  match i with
  | .genSeq count => count.toNat
  | .xchgSeqOut info => xchgCount s.params info
  | .xchgSeqIn info => xchgCount s.params info
  | .transferRd _ => transferCycles s.cfg (classOf (ackAhead s))
  | .transferWr _ _ => transferCycles s.cfg (classOf (ackAhead s))
  | .cfgWrite _ _ _ => 0
  | .writeBit _ => 1
  | .readBit => 1
  | .clockCycle => 1

/-- `DIO_DIR` and `DIO_O` in each clock cycle of a transfer started here (R155): the 8 request cycles driven; the released
cycles; the driven data, dummy and idle cycles. -/
def transferLines (req : BitVec 4) (wdata : Word) (s : State) : List (Dir × Bit) :=
  let driven (bs : List Bit) := bs.map fun b => (Dir.host, b)
  let released (n : Nat) := List.replicate n (Dir.target, true)
  let t := s.cfg.turnaround
  let rnw := req.getLsbD 1
  driven (packetBits req) ++
  match classOf (ackAhead s) with
  | .ok =>
    if rnw then released (t + 3 + 33 + t) ++ driven (List.replicate s.cfg.idle false)
    else released (t + 3 + t) ++ driven (bitsOf wdata ++ [parity wdata]) ++ driven (List.replicate s.cfg.idle false)
  | .wait | .fault =>
    if s.cfg.dataPhase then
      if rnw then released (t + 3 + 33 + t)
      else released (t + 3 + t) ++ driven (List.replicate 33 s.params.dummyWriteLevel)
    else released (t + 3 + t)
  | .parityError | .protocolError _ => released (t + 3 + (t + 33))

/-! ## The invariant -/

/-- The configuration is legal once it is written (R26, R27, R29). -/
def Cfg.legal (p : Config.Params) (c : Cfg) : Prop :=
  c.valid = true → 1 ≤ c.turnaround ∧ c.turnaround ≤ p.turnMax ∧ c.idle ≤ p.idleMax

/-- The phases of a transfer (R25). -/
def Phase.ofTransfer : Phase → Bool
  | .idle => false
  | .seqOut => false
  | .seqIn => false
  | .req => true
  | .trn1 => true
  | .ack => true
  | .rdata => true
  | .rpar => true
  | .trn2Rd => true
  | .trn2Wr => true
  | .wdata => true
  | .wpar => true
  | .idlecyc => true
  | .dummyRd => true
  | .trn2Err => true
  | .dummyWr => true
  | .backoff => true

/-- The transfer phases in which the line is released (R155). -/
def Phase.released : Phase → Bool
  | .idle => false
  | .seqOut => false
  | .seqIn => false
  | .req => false
  | .trn1 => true
  | .ack => true
  | .rdata => true
  | .rpar => true
  | .trn2Rd => true
  | .trn2Wr => true
  | .wdata => false
  | .wpar => false
  | .idlecyc => false
  | .dummyRd => true
  | .trn2Err => true
  | .dummyWr => false
  | .backoff => true

/-- The direction `DIO_DIR` has in a phase; none in `P_IDLE`, where the last operation decides (R155, R207). -/
def Phase.direction : Phase → Option Dir
  | .idle => none
  | .seqOut => some .host
  | .seqIn => some .target
  | .req => some .host
  | .trn1 => some .target
  | .ack => some .target
  | .rdata => some .target
  | .rpar => some .target
  | .trn2Rd => some .target
  | .trn2Wr => some .target
  | .wdata => some .host
  | .wpar => some .host
  | .idlecyc => some .host
  | .dummyRd => some .target
  | .trn2Err => some .target
  | .dummyWr => some .host
  | .backoff => some .target

/-- The direction of the request that a phase belongs to; none where it belongs to both (R152). -/
def Phase.needsRnw : Phase → Option Bit
  | .rdata => some true
  | .rpar => some true
  | .trn2Rd => some true
  | .dummyRd => some true
  | .trn2Wr => some false
  | .wdata => some false
  | .wpar => some false
  | .dummyWr => some false
  | .idle => none
  | .seqOut => none
  | .seqIn => none
  | .req => none
  | .trn1 => none
  | .ack => none
  | .idlecyc => none
  | .trn2Err => none
  | .backoff => none

/-- The bound of R25 on `CNT`: `max(TURN_MAX + 33, IDLE_MAX, 64, GEN_MAX)`. -/
def cntBound (p : Config.Params) : Nat := max (max (p.turnMax + 33) p.idleMax) (max 64 p.genMax)

/-- What holds of every state between two steps, from reset on. -/
structure Inv (s : State) : Prop where
  /-- The buffers are in canonical form, those waiting beside a command too. -/
  srcWf : s.src.wf = true
  dstWf : s.dst.wf = true
  pendingWf : ∀ c ∈ s.pending, ∀ m, c.src = some m ∨ c.dst = some m → m.wf = true
  /-- The configuration registers hold legal values once written (R26, R27). -/
  cfgLegal : s.cfg.legal s.params
  /-- "`CLK = 1` ... whenever no micro-operation is in progress" (R21). -/
  clkHigh : s.pins.clk = true
  /-- No micro-operation is issued from outside the sequencer while an operation is in progress (D27). -/
  noStrayUop : s.busy = true → uopPresent s.uop = false
  /-- A phase in progress has steps left (R25). -/
  cntPos : s.busy = true → 0 < s.cnt
  /-- A transfer runs on a written configuration (R29), and `CNT` is at most the phase's load (R152). -/
  transferCfg : s.phase.ofTransfer = true → s.cfg.valid = true ∧ s.cnt ≤ cntLoad s.phase s
  /-- In a sequence "`CNT` is `NBITS`" (R113), within the range of R36. -/
  seqOutCnt : s.phase = .seqOut → s.cnt = s.work.nbits ∧ s.cnt ≤ max s.params.genMax 64
  seqInCnt : s.phase = .seqIn → s.cnt = s.work.nbits ∧ s.cnt ≤ 64
  /-- `K` is 0 to 8 (R38). -/
  kRange : s.phase = .seqOut ∨ s.phase = .seqIn → s.work.k ≤ 8
  /-- Who drives the line (R155), in a model that has the register. -/
  lineDir : s.params.hasDir = true → ∀ way, s.phase.direction = some way → s.pins.dioDir = way
  /-- "Line released (`DIO_DIR = TARGET`, `DIO_O = 1`)" (R155). -/
  releasedHigh : s.phase.released = true → s.pins.dioO = true
  /-- The level of the driven dummy and idle cycles (R145, R147). -/
  idleLow : s.phase = .idlecyc → s.pins.dioO = false
  dummyLevel : s.phase = .dummyWr → s.pins.dioO = s.params.dummyWriteLevel
  /-- The phases of one direction run only for a request of that direction (R152). -/
  rnwPhase : ∀ b, s.phase.needsRnw = some b → s.rnw = b
  /-- The dummy block runs only where the configuration asks for it (R147). -/
  dummyPhase : s.phase = .dummyRd ∨ s.phase = .dummyWr → s.cfg.dataPhase = true

end Sys2Proof.Machine
end

