-- ==== Sys2Proof/Certificates/Slice0/Obligations.lean ====
section
/-! DEFINITION. The statements for the provers. Each docstring names the rule of spec/ it formalises. Where a statement leaves the
working registers, `CNT` or the draw counter of the next state under an existential, it is because the spec leaves those values
unspecified between operations (10_state.md section 5, R42) or because the field is the model's own. -/

open Sys2Proof Sys2Proof.Machine

/-! ## Reset and the step -/

/-- R200 (70_reset_and_hazards.md): the values after reset, no pin event, and the wait in `P_IDLE` for the first command. -/
def Obligations.ResetStateAndWait : Prop :=
  State.reset.pins = { clk := true, dioO := true, dioDir := .host } ∧
  State.reset.phase = .idle ∧ State.reset.cfg.valid = false ∧ State.reset.trace = [] ∧
  step State.reset = .next State.reset

/-- The step runs the word that is presented (R39, R70): a command at the port with the bit buffers passed beside it, in the
state without it; a micro-operation word that is issued. The port and the latch are the model's own (log 2, log 3). -/
def Obligations.StepRunsThePresentedWord : Prop :=
  (∀ (s : State) (c : Command) (rest : List Command) (i : Instr),
    uopPresent s.uop = false → s.pending = c :: rest → decodeCmd c.word = .ok i →
    step s = exec i { s with pending := rest, src := c.src.getD s.src, dst := c.dst.getD s.dst }) ∧
  (∀ (s : State) (i : Instr),
    uopPresent s.uop = true → decodeUop s.uop = .ok i → step s = exec i { s with uop := 0 })

/-- A word placed with `withFetchWord` is the one the next step runs, whatever the state (log 4, the model's own). -/
def Obligations.PlacedWordRunsNext : Prop :=
  ∀ (s : State) (nbits w : Nat) (i : Instr),
    decodeTableWord nbits w = some i → step (s.withFetchWord nbits w) = exec i { s with uop := 0 }

/-- With nothing presented the sequencer goes on in a phase other than `P_IDLE`, and in `P_IDLE` the engine waits unchanged
(R25, R58 b: "the engine generates no pin event between operations"). -/
def Obligations.StepWithoutWord : Prop :=
  ∀ s : State, uopPresent s.uop = false → s.pending = [] →
    (s.busy = false → step s = .next s) ∧ (s.busy = true → step s = sequencerStep s)

/-! ## Words -/

/-- Words written out from 30_encoding.md R71, R77 and R80 decode to the operations they stand for (95_test_vectors.md G5, X2,
X15, WR1, RF6, CF4 and section 2.1). -/
def Obligations.SampleWordsDecode : Prop :=
  decode (.cmd 0x1000000000C#44) = .ok (.genSeq 12) ∧
  decode (.cmd 0x2000000000C#44) = .ok (.xchgSeqOut 0x0C) ∧
  decode (.cmd 0x2000000008C#44) = .ok (.xchgSeqIn 0x8C) ∧
  decode (.cmd 0x3DEADBEEF02#44) = .ok (.transferRd 0x2) ∧
  decode (.cmd 0x35000000004#44) = .ok (.transferWr 0x4 0x50000000) ∧
  decode (.cmd 0x4000001FF04#44) = .ok (.cfgWrite 4 255 true) ∧
  decode (.uop 0b101#3) = .ok (.writeBit true) ∧
  decode (.uop 0b110#3) = .ok .readBit ∧
  decode (.uop 0b010#3) = .ok .clockCycle

/-- Decoding an encoded operation gives it back, for every well-formed operation and every value of its operands (R71, R72,
R77, R80). -/
def Obligations.DecodeOfEncode : Prop :=
  ∀ i : Instr, i.wf = true → decode (encode i) = .ok i

/-- Every word that decodes is spelled again by the encoder, but for the `wdata` field of a `TRANSFER.RD`, which "is ignored and
may hold anything" (R71); and what decodes is well formed. -/
def Obligations.EncodeOfDecode : Prop :=
  ∀ (c : CodeWord) (i : Instr), decode c = .ok i →
    i.wf = true ∧
    match c, i with
    | .cmd w, .transferRd _ => encode i = .cmd (w &&& 0xF00000000FF#44)
    | _, _ => encode i = c

/-- The decoder agrees with spec/opcode_table.json: a word decodes to an operation of some mnemonic exactly when it matches the
mask and pattern of a row of that mnemonic. -/
def Obligations.DecoderAgreesWithOpcodeTable : Prop :=
  ∀ (c : CodeWord) (m : String),
    (∃ i, decode c = .ok i ∧ i.mnemonic = m) ↔ (∃ r ∈ opcodeTable, r.mnemonic = m ∧ r.matchesWord c = true)

/-- R81 (30_encoding.md): every illegal command is refused, each for its reason: (a) reserved `op`; (b) a must-be-zero bit of R71
set; (c) `GEN_SEQ` above `GEN_MAX`; (d) `CFG_WRITE` out of range; (e) `TRANSFER` while `CFG.VALID = 0`; (f) any command while
`BUSY`. -/
def Obligations.IllegalCommandsAreRefused : Prop :=
  (∀ w : BitVec 44, w >>> 40 = 0 ∨ 5 ≤ (w >>> 40).toNat → ∃ op, decodeCmd w = .error (.reservedOp op)) ∧
  (∀ w : BitVec 44,
    (w >>> 40 = 1 ∧ w &&& 0xFFFFFFFE00 ≠ 0) ∨ (w >>> 40 = 2 ∧ w &&& 0xFFFFFFFF40 ≠ 0) ∨
    (w >>> 40 = 3 ∧ w &&& 0xF0 ≠ 0) ∨ (w >>> 40 = 4 ∧ w &&& 0xFFFFFE0000 ≠ 0) →
    decodeCmd w = .error .mustBeZero) ∧
  (∀ (s : State) (c : Command) (rest : List Command) (e : DecodeError),
    uopPresent s.uop = false → s.pending = c :: rest → decodeCmd c.word = .error e →
    step s = .refused (.undecodable e)) ∧
  (∀ (count : BitVec 9) (s : State), s.busy = false → s.params.genMax < count.toNat →
    exec (.genSeq count) s = .refused .countOutOfRange) ∧
  (∀ (turnaround idle : BitVec 8) (dp : Bit) (s : State), s.busy = false →
    (turnaround = 0 ∨ s.params.turnMax < turnaround.toNat →
      exec (.cfgWrite turnaround idle dp) s = .refused .turnaroundOutOfRange) ∧
    (1 ≤ turnaround.toNat → turnaround.toNat ≤ s.params.turnMax → s.params.idleMax < idle.toNat →
      exec (.cfgWrite turnaround idle dp) s = .refused .idleOutOfRange)) ∧
  (∀ (req : BitVec 4) (wdata : Word) (s : State), s.busy = false → s.cfg.valid = false →
    exec (.transferRd req) s = .refused .notConfigured ∧
    exec (.transferWr req wdata) s = .refused .notConfigured) ∧
  (∀ (i : Instr) (s : State), i.isMicroOp = false → s.busy = true → exec i s = .refused .busy)

/-- Every well-formed command whose operands are legal runs when the engine is idle and, for a transfer, configured: the refusals
of R81 are all there are ("the source defines no behaviour for any of them", R81); a micro-operation always runs. That an output
sequence runs where SRC lacks bytes is the model's choice (log 10). -/
def Obligations.LegalOperationsRun : Prop :=
  ∀ (i : Instr) (s : State), i.wf = true → i.legal s.params = true →
    (i.isMicroOp = false → s.busy = false) →
    (i.mnemonic = "TRANSFER.RD" ∨ i.mnemonic = "TRANSFER.WR" → s.cfg.valid = true) →
    ∃ t, exec i s = .next t

/-! ## The micro-operations -/

/-- R100 (40_bit_primitives.md): `WRITE_BIT(v)`, spelled `0b10v`, writes `DIO_O = v`, leaves `CLK = 1`, issues `Dv K0 K1`, and
changes nothing else. -/
def Obligations.WriteBitEffect : Prop :=
  ∀ (v : Bit) (s : State), decode (.uop (0b10#2 ++ BitVec.ofBool v)) = .ok (.writeBit v) ∧
    exec (.writeBit v) s = .next
      { s with pins := { s.pins with dioO := v, clk := true }
               trace := s.trace ++ [.d v, .k0, .k1]
               ret := some .nothing }

/-- R101: `READ_BIT`, spelled `0b110`, takes exactly one sample after `K0` and before `K1`, returns it, leaves `CLK = 1`, and changes
nothing else. -/
def Obligations.ReadBitEffect : Prop :=
  ∀ s : State, decode (.uop 0b110#3) = .ok .readBit ∧ exec .readBit s = .next
    { s with pins := { s.pins with clk := true }
             trace := s.trace ++ [.k0, .s (sampleAt s 0), .k1]
             script := s.script.drop 1
             samples := s.samples + 1
             ret := some (.bit (sampleAt s 0)) }

/-- R102: `CLOCK_CYCLE`, spelled `0b010`, pulses the clock and changes nothing else. -/
def Obligations.ClockCycleEffect : Prop :=
  ∀ s : State, decode (.uop 0b010#3) = .ok .clockCycle ∧ exec .clockCycle s = .next
    { s with pins := { s.pins with clk := true }
             trace := s.trace ++ [.k0, .k1]
             ret := some .nothing }

/-- R103: in the events of every operation `K0` and `K1` alternate, from the high clock on, and the clock ends high; and the
clock register follows. -/
def Obligations.ClockAlternatesAndRestsHigh : Prop :=
  ∀ (i : Instr) (s t : State), s.pins.clk = true → exec i s = .next t →
    t.pins.clk = true ∧ ∃ evs, t.trace = s.trace ++ evs ∧ clockAlternates true evs = true

/-! ## The sequence transceiver -/

/-- R110 (41_sequence.md): `GEN_SEQ` of `count` bits, with its buffer supplied, issues `>H` and then writes the buffer's bits in
order; it leaves `DIO_O` at the last bit (unchanged when `count = 0`), `DIO_DIR = HOST`, returns nothing and changes nothing else. -/
def Obligations.GenSeqEffect : Prop :=
  ∀ (count : BitVec 9) (s : State) (bytes : Nat → Byte),
    s.busy = false → count.toNat ≤ s.params.genMax →
    (∀ j, j < ceil8 count.toNat → s.src.read j = some (bytes j)) →
    ∃ work cnt draws, exec (.genSeq count) s = .next
      { s with pins := { clk := if count.toNat = 0 then s.pins.clk else true
                         dioO := if count.toNat = 0 then s.pins.dioO else seqBit bytes (count.toNat - 1)
                         dioDir := dirAfter s .host }
               phase := .idle, cnt := cnt, work := work, draws := draws
               ret := some .nothing
               trace := s.trace ++ dirEvents s.params .host ++ (seqBits bytes count.toNat).flatMap writeEvents
               accesses := s.accesses ++ (List.range (ceil8 count.toNat)).map fun j =>
                 .read j ((s.trace ++ dirEvents s.params .host).length + 24 * j) }

/-- R111: `XCHG_SEQ.OUT` of `n` bits, `n` as R78 decodes it, with its buffer supplied; and `info[6]` set is refused, as is a bit
that a count field narrower than 6 leaves free (R9; the model's choice, log 5). -/
def Obligations.XchgSeqOutEffect : Prop :=
  ∀ (info : BitVec 8) (s : State) (bytes : Nat → Byte), s.busy = false → info.getLsbD 7 = false →
    (info.getLsbD 6 = true ∨ (Instr.xchgSeqOut info).legal s.params = false →
      exec (.xchgSeqOut info) s = .refused .reservedBit) ∧
    ((Instr.xchgSeqOut info).legal s.params = true → (∀ j, j < ceil8 (xchgCount s.params info) → s.src.read j = some (bytes j)) →
      ∃ work cnt draws, exec (.xchgSeqOut info) s = .next
        { s with pins := { clk := true, dioO := seqBit bytes (xchgCount s.params info - 1), dioDir := dirAfter s .host }
                 phase := .idle, cnt := cnt, work := work, draws := draws
                 ret := some .nothing
                 trace := s.trace ++ dirEvents s.params .host ++ (seqBits bytes (xchgCount s.params info)).flatMap writeEvents
                 accesses := s.accesses ++ (List.range (ceil8 (xchgCount s.params info))).map fun j =>
                   .read j ((s.trace ++ dirEvents s.params .host).length + 24 * j) })

/-- R111: "The body is that of GEN_SEQ (rule R110) with `n` in place of `count`". -/
def Obligations.XchgSeqOutIsGenSeqOfItsCount : Prop :=
  ∀ (info : BitVec 8) (s : State), (Instr.xchgSeqOut info).wf = true → (Instr.xchgSeqOut info).legal s.params = true →
    xchgCount s.params info ≤ s.params.genMax →
    exec (.xchgSeqOut info) s = exec (.genSeq (BitVec.ofNat 9 (xchgCount s.params info))) s

/-- R78 and R83 (30_encoding.md): the count field 0 means 64 and every other value itself; `n` ranges over 1 to 64; and with the
width 6 of R77 the field is `info[5:0]`, and each `n` of that range is spelled by the field `n mod 64`, in both forms, with no
reserved bit set. For any width `w` (R9, `XCHG_COUNT_BITS`) the field is the `w` low bits. -/
def Obligations.CountFieldDecoding : Prop :=
  (∀ (p : Config.Params) (info : BitVec 8),
    (info.toNat % 2 ^ p.xchgCountBits.val = 0 → xchgCount p info = 64) ∧
    (info.toNat % 2 ^ p.xchgCountBits.val ≠ 0 → xchgCount p info = info.toNat % 2 ^ p.xchgCountBits.val) ∧
    1 ≤ xchgCount p info ∧ xchgCount p info ≤ 64) ∧
  (∀ p : Config.Params, p.xchgCountBits = 6 →
    (∀ info : BitVec 8, (info &&& 0x3F = 0 → xchgCount p info = 64) ∧
      (info &&& 0x3F ≠ 0 → xchgCount p info = (info &&& 0x3F).toNat) ∧
      (Instr.xchgSeqOut info).legal p = !info.getLsbD 6 ∧ (Instr.xchgSeqIn info).legal p = !info.getLsbD 6) ∧
    ∀ n, 1 ≤ n → n ≤ 64 →
      xchgCount p (BitVec.ofNat 8 (n % 64)) = n ∧ (Instr.xchgSeqOut (BitVec.ofNat 8 (n % 64))).wf = true ∧
      xchgCount p (BitVec.ofNat 8 (128 + n % 64)) = n ∧ (Instr.xchgSeqIn (BitVec.ofNat 8 (128 + n % 64))).wf = true)

/-- R51 (20_memory.md), for every buffer, one that lacks bytes too (that such a run goes on, with free values, is the model's
choice, log 10), after the `>H` of the spec's decision D3: an output sequence of
`n` bits runs, reads exactly the bytes 0 to `ceil8(n) - 1`, ascending, each just before the first of its bits is sent, changes no
buffer, takes no sample, and issues `n` clock cycles; and the bits of the last byte above the sequence are never used: another
buffer with the same first `n` bits gives the same events and the same pins. A read returns the byte and leaves the buffer. -/
def Obligations.OutputReadsEachByteOnce : Prop :=
  (∀ (k : Nat) (v : Byte) (s : State), s.src.read k = some v →
    (memReadSrc k s).1 = v ∧ (memReadSrc k s).2.src = s.src) ∧
  ∀ (i : Instr) (n : Nat) (s : State), s.busy = false →
    ((∃ c, i = .genSeq c ∧ c.toNat = n ∧ n ≤ s.params.genMax) ∨
      (∃ info, i = .xchgSeqOut info ∧ i.wf = true ∧ i.legal s.params = true ∧ xchgCount s.params info = n)) →
    ∃ t, exec i s = .next t ∧
      t.accesses = s.accesses ++ (List.range (ceil8 n)).map (fun j =>
        .read j ((s.trace ++ dirEvents s.params .host).length + 24 * j)) ∧
      t.src = s.src ∧ t.dst = s.dst ∧ t.samples = s.samples ∧ t.script = s.script ∧
      cycles t.trace = cycles s.trace + n ∧
      ∀ src' : Memory,
        (∀ j, j < ceil8 n → ∃ a b, s.src.read j = some a ∧ src'.read j = some b ∧
          ∀ m, m < 8 → 8 * j + m < n → a.getLsbD m = b.getLsbD m) →
        ∃ u, exec i { s with src := src' } = .next u ∧ u.trace = t.trace ∧ u.pins = t.pins

/-- R112: `XCHG_SEQ.IN` of `n` bits: `>T`, then `n` samples; byte `j` of DST below `ceil8(n)` holds samples `8j` to `8j + 7`, with
zeros where there are none; bytes from `ceil8(n)` on are untouched; `DIO_O` is not written and `DIO_DIR` stays `TARGET`; and
`info[6]` set is refused, as is a bit that a count field narrower than 6 leaves free (R9; the model's choice, log 5). DST is the
buffer the operation was given (R39). -/
def Obligations.XchgSeqInEffect : Prop :=
  ∀ (info : BitVec 8) (s : State), s.busy = false → info.getLsbD 7 = true →
    (info.getLsbD 6 = true ∨ (Instr.xchgSeqIn info).legal s.params = false →
      exec (.xchgSeqIn info) s = .refused .reservedBit) ∧
    ((Instr.xchgSeqIn info).legal s.params = true →
      ∃ work cnt draws dst, exec (.xchgSeqIn info) s = .next
        { s with pins := { clk := true, dioO := s.pins.dioO, dioDir := dirAfter s .target }
                 phase := .idle, cnt := cnt, work := work, draws := draws
                 ret := some (.captured (ceil8 (xchgCount s.params info)))
                 trace := s.trace ++ dirEvents s.params .target ++
                   (samplesFrom s (xchgCount s.params info)).flatMap readEvents
                 script := s.script.drop (xchgCount s.params info)
                 samples := s.samples + xchgCount s.params info
                 dst := dst
                 accesses := s.accesses ++ (List.range (ceil8 (xchgCount s.params info))).map fun j =>
                   .write j (capturedByte s (xchgCount s.params info) j)
                     ((s.trace ++ dirEvents s.params .target).length + 3 * min (8 * (j + 1)) (xchgCount s.params info)) } ∧
        (∀ j, j < ceil8 (xchgCount s.params info) → dst.read j = some (capturedByte s (xchgCount s.params info) j)) ∧
        (∀ j, ceil8 (xchgCount s.params info) ≤ j → dst.read j = s.dst.read j))

/-- R52 (20_memory.md): a capture of `n` bits writes exactly the bytes 0 to `ceil8(n) - 1` of DST, ascending, each once, just after the
last of its bits is sampled; a written byte reads back as written and the others are untouched; and no operation reads DST:
whatever it holds, the run is the same but for DST. -/
def Obligations.CaptureWritesEachByteOnce : Prop :=
  (∀ (k j : Nat) (v : Byte) (s : State),
    (memWriteDst k v s).dst.read j = if j = k then some v else s.dst.read j) ∧
  (∀ (info : BitVec 8) (s : State), s.busy = false → (Instr.xchgSeqIn info).wf = true →
    (Instr.xchgSeqIn info).legal s.params = true →
    ∃ t, exec (.xchgSeqIn info) s = .next t ∧
      t.accesses = s.accesses ++ (List.range (ceil8 (xchgCount s.params info))).map (fun j =>
        .write j (capturedByte s (xchgCount s.params info) j)
          ((s.trace ++ dirEvents s.params .target).length + 3 * min (8 * (j + 1)) (xchgCount s.params info))) ∧
      ∀ j, ceil8 (xchgCount s.params info) ≤ j → t.dst.read j = s.dst.read j) ∧
  ∀ (i : Instr) (s t : State) (m : Memory), exec i s = .next t →
    ∃ m', exec i { s with dst := m } = .next { t with dst := m' }

/-- R55: when `n mod 8 = r` is not 0, the last captured byte has the `r` samples at positions 0 to `r - 1`, the earliest at 0, and
zeros above. -/
def Obligations.PartialByteIsRightAligned : Prop :=
  ∀ (info : BitVec 8) (s t : State), exec (.xchgSeqIn info) s = .next t → xchgCount s.params info % 8 ≠ 0 →
    ∃ v, t.dst.read (xchgCount s.params info / 8) = some v ∧
      (∀ m, m < xchgCount s.params info % 8 → v.getLsbD m = sampleAt s (8 * (xchgCount s.params info / 8) + m)) ∧
      (∀ m, xchgCount s.params info % 8 ≤ m → v.getLsbD m = false)

/-- R114: the round trip over a loopback: a capture of `n` bits whose samples are the `n` bits an output sequence sent puts those
bits back, byte by byte, the last partial byte masked. -/
def Obligations.LoopbackRoundTrip : Prop :=
  ∀ (i : Instr) (info : BitVec 8) (n : Nat) (s : State) (bytes : Nat → Byte),
    s.busy = false → 1 ≤ n → n ≤ 64 →
    ((∃ c, i = .genSeq c ∧ c.toNat = n ∧ n ≤ s.params.genMax) ∨
      (∃ o, i = .xchgSeqOut o ∧ i.wf = true ∧ i.legal s.params = true ∧ xchgCount s.params o = n)) →
    (Instr.xchgSeqIn info).wf = true → (Instr.xchgSeqIn info).legal s.params = true → xchgCount s.params info = n →
    (∀ j, j < ceil8 n → s.src.read j = some (bytes j)) →
    ∃ t u, exec i s = .next t ∧
      exec (.xchgSeqIn info) { t with script := drivenBits (t.trace.drop s.trace.length) } = .next u ∧
      (∀ j, j < n / 8 → u.dst.read j = some (bytes j)) ∧
      (n % 8 ≠ 0 → u.dst.read (n / 8) = some (bytes (n / 8) &&& BitVec.ofNat 8 (2 ^ (n % 8) - 1)))

/-- R54: a 32-bit word stored in a 4-byte SRC buffer, least significant byte first, and sent as a 32-bit output sequence gives the
wire the same bits in the same order as the data phase of a write of that word. -/
def Obligations.MixedViewsAgree : Prop :=
  ∀ (i : Instr) (w : Word) (s u : State), s.busy = false →
    (i = .genSeq 32 ∧ 32 ≤ s.params.genMax ∨ i = .xchgSeqOut 32 ∧ i.legal s.params = true) →
    (∀ j, j < 4 → s.src.read j = some (w.extractLsb' (8 * j) 8)) → u.work.data = w →
    ∃ t evs, exec i s = .next t ∧ t.trace = s.trace ++ dirEvents s.params .host ++ evs ∧
      (writeData u).trace = u.trace ++ evs ∧ drivenBits evs = bitsOf w

/-- R115 ("The sequence operations read no configuration field"), of every buffer (that a run goes on where SRC lacks bytes is the
model's choice, log 10): the same run whatever the configuration, and the configuration
left as it was; they run before it is written, whatever it holds; no clock cycle is added to the bits of the sequence; and no
outcome is reported. -/
def Obligations.SequencesReadNoConfiguration : Prop :=
  ∀ (i : Instr) (s : State) (c : Cfg),
    ((∃ n, i = .genSeq n) ∨ (∃ o, i = .xchgSeqOut o) ∨ (∃ o, i = .xchgSeqIn o)) →
    (∀ t, exec i s = .next t → exec i { s with cfg := c } = .next { t with cfg := c }) ∧
    (s.busy = false → i.wf = true → i.legal s.params = true → ∃ t, exec i s = .next t ∧
      cycles t.trace = cycles s.trace + frameLength i s ∧
      (t.ret = some .nothing ∨ ∃ k, t.ret = some (.captured k)))

/-! ## The transfer engine, phase by phase -/

/-- R131 (42_transfer.md): the request phase sends the eight bits of the packet in the order of R73, `DIO_DIR = HOST` from its
first event, and leaves `DIO_O = 1`, `CLK = 1` and `PAR` the parity of the request. -/
def Obligations.RequestPhaseSendsPacket : Prop :=
  ∀ s : State, sendRequest s =
    { s with phase := .req
             pins := { clk := true, dioO := true, dioDir := dirAfter s .host }
             work := { s.work with par := parity s.work.req }
             trace := s.trace ++ dirEvents s.params .host ++ (packetBits s.work.req).flatMap writeEvents }

/-- R74 and R73: the count of set bits among the four request bits and the parity bit is even for every descriptor, and the
packets, as bytes, are the sixteen of the table. -/
def Obligations.RequestParityIsEven : Prop :=
  (∀ req : BitVec 4, ones ([req.getLsbD 0, req.getLsbD 1, req.getLsbD 2, req.getLsbD 3] ++
    [(packetBits req).getD 5 false]) % 2 = 0) ∧
  (∀ req : BitVec 4, bitsOf (packet req) = packetBits req) ∧
  (List.range 16).map (fun r => packet (BitVec.ofNat 4 r)) =
    [0x81, 0xA3, 0xA5, 0x87, 0xA9, 0x8B, 0x8D, 0xAF, 0xB1, 0x93, 0x95, 0xB7, 0x99, 0xBB, 0xBD, 0x9F]

/-- R132: the first turnaround: idle-high, `>T`, exactly `T` clock cycles, nothing sampled. -/
def Obligations.FirstTurnaround : Prop :=
  ∀ s : State, 1 ≤ s.cfg.turnaround → turnaround1 s =
    { s with phase := .trn1
             pins := { clk := true, dioO := true, dioDir := dirAfter s .target }
             trace := s.trace ++ [.d true] ++ dirEvents s.params .target ++ cycleEvents s.cfg.turnaround }

/-- R133: exactly three samples, the first into `ACK[0]`, the third into `ACK[2]`, "immediately after the last turnaround cycle,
whatever the line does": the trace of every transfer begins with the packet and the turnaround of R131 and R132, the `>H` and `>T`
of the spec's decision D3 among their events, and then these three cycles. -/
def Obligations.AckSamplesThreeBits : Prop :=
  (∀ s : State, sampleAck s =
    { s with phase := .ack
             pins := { s.pins with clk := true }
             work := { s.work with ack := ackAhead s }
             trace := s.trace ++ (samplesFrom s 3).flatMap readEvents
             script := s.script.drop 3
             samples := s.samples + 3 }) ∧
  (∀ s : State, (sampleAck (turnaround1 s)).trace =
    s.trace ++ [.d true] ++ dirEvents s.params .target ++ cycleEvents s.cfg.turnaround ++
      (samplesFrom s 3).flatMap readEvents) ∧
  ∀ (i : Instr) (req : BitVec 4) (s t : State),
    (i = .transferRd req ∨ ∃ wdata, i = .transferWr req wdata) → exec i s = .next t →
    s.trace ++ openingTrace req s <+: t.trace

/-- R134 with the table of R75: OK, WAIT and FAULT are exact comparisons, and each of the five other patterns is PROTOCOL_ERROR
carrying it; so is a line that holds one level throughout. -/
def Obligations.AckClassification : Prop :=
  classOf 0b001 = .ok ∧ classOf 0b010 = .wait ∧ classOf 0b100 = .fault ∧
  (∀ a : BitVec 3, a ≠ 0b001 → a ≠ 0b010 → a ≠ 0b100 → classOf a = .protocolError a) ∧
  ∀ (s : State) (level : Bit), (∀ i, i < 3 → sampleAt s i = level) →
    classOf (ackAhead s) = .protocolError (if level then 0b111 else 0b000)

/-- R136: 32 samples, the first into bit 0 of the word; at the end `PAR` is the parity of the word. -/
def Obligations.ReadDataPhase : Prop :=
  ∀ (s : State) (w : Word), (∀ i, i < 32 → w.getLsbD i = sampleAt s i) → readData s =
    { s with phase := .rdata
             pins := { s.pins with clk := true }
             work := { s.work with data := w, par := parity w }
             trace := s.trace ++ (bitsOf w).flatMap readEvents
             script := s.script.drop 32
             samples := s.samples + 32 }

/-- R137: one sample; the result is OK exactly when the number of 1 bits among the 32 data bits and the parity bit is even, else
PARITY_ERROR. Stated of a state whose `PAR` is the parity of `DATA`, as R136 leaves it. -/
def Obligations.ReadParityCheck : Prop :=
  ∀ s : State, s.work.par = parity s.work.data → checkParity s =
    { s with phase := .rpar
             pins := { s.pins with clk := true }
             work := { s.work with res := if ones (bitsOf s.work.data ++ [sampleAt s 0]) % 2 = 0 then .ok else .parityError }
             trace := s.trace ++ readEvents (sampleAt s 0)
             script := s.script.drop 1
             samples := s.samples + 1 }

/-- R140 and R141: the 32 data bits, bit 0 first, then the parity bit that makes the number of 1 bits among the 33 even; `DIO_O`
ends at it and the result is OK. That wire position `i` carries bit `i` is the spec's decision D16. -/
def Obligations.WriteDataPhase : Prop :=
  ∀ s : State, ∃ p : Bit, p = parity s.work.data ∧ ones (bitsOf s.work.data ++ [p]) % 2 = 0 ∧
    writeParity (writeData s) =
    { s with phase := .wpar
             pins := { s.pins with clk := true, dioO := p }
             work := { s.work with par := p, res := .ok }
             trace := s.trace ++ (bitsOf s.work.data ++ [p]).flatMap writeEvents }

/-- R10: `parity(v)` is the number of 1 bits modulo 2, for the widths the engine uses. -/
def Obligations.ParityCountsOnes : Prop :=
  (∀ v : Word, parity v = decide (ones (bitsOf v) % 2 = 1)) ∧
  (∀ v : BitVec 4, parity v = decide (ones (bitsOf v) % 2 = 1))

/-! ## The transfers whole -/

/-- R150, the OK branch of a read (R135, R136 to R138, R145, R146): the events in order; the word returned exactly when the parity
check passed; the lines idle-high and driven; nothing else changed. -/
def Obligations.TransferReadOk : Prop :=
  ∀ (req : BitVec 4) (w : Word) (s : State),
    s.busy = false → s.cfg.valid = true → req.getLsbD 1 = true → ackAhead s = 0b001 → IsWordAhead s w →
    ∃ work cnt draws, exec (.transferRd req) s = .next
      { s with pins := { clk := true, dioO := true, dioDir := dirAfter s .host }
               phase := .idle, cnt := cnt, work := work, draws := draws
               ret := some (if ones (bitsOf w ++ [sampleAt s 35]) % 2 = 0 then .transfer .ok (some w)
                            else .transfer .parityError none)
               trace := s.trace ++ openingTrace req s ++ (bitsOf w ++ [sampleAt s 35]).flatMap readEvents ++
                 cycleEvents s.cfg.turnaround ++ dirEvents s.params .host ++ [.d true] ++ idleTrace s ++ [.d true]
               script := s.script.drop 36
               samples := s.samples + 36 }

/-- R151, the OK branch of a write (R135, R139 to R141, R145, R146). -/
def Obligations.TransferWriteOk : Prop :=
  ∀ (req : BitVec 4) (wdata : Word) (s : State),
    s.busy = false → s.cfg.valid = true → req.getLsbD 1 = false → ackAhead s = 0b001 →
    ∃ work cnt draws, exec (.transferWr req wdata) s = .next
      { s with pins := { clk := true, dioO := true, dioDir := dirAfter s .host }
               phase := .idle, cnt := cnt, work := work, draws := draws
               ret := some (.transfer .ok none)
               trace := s.trace ++ openingTrace req s ++ cycleEvents s.cfg.turnaround ++ dirEvents s.params .host ++
                 (bitsOf wdata ++ [parity wdata]).flatMap writeEvents ++ idleTrace s ++ [.d true]
               script := s.script.drop 3
               samples := s.samples + 3 }

/-- R147, WAIT and FAULT on a read: with `DP = 1` the 33 dummy cycles before the trailing turnaround, the line released; no idle
cycle, no further sample, the acknowledgement returned as sampled. -/
def Obligations.TransferReadWaitFault : Prop :=
  ∀ (req : BitVec 4) (s : State),
    s.busy = false → s.cfg.valid = true → req.getLsbD 1 = true → ackAhead s = 0b010 ∨ ackAhead s = 0b100 →
    ∃ work cnt draws, exec (.transferRd req) s = .next
      { s with pins := { clk := true, dioO := true, dioDir := dirAfter s .host }
               phase := .idle, cnt := cnt, work := work, draws := draws
               ret := some (.transfer (if ackAhead s = 0b010 then .wait else .fault) none)
               trace := s.trace ++ openingTrace req s ++ (if s.cfg.dataPhase then cycleEvents 33 else []) ++
                 cycleEvents s.cfg.turnaround ++ dirEvents s.params .host ++ [.d true]
               script := s.script.drop 3
               samples := s.samples + 3 }

/-- R147, WAIT and FAULT on a write: with `DP = 1` the 33 dummy cycles after the trailing turnaround, at `DUMMY_WRITE_LEVEL`. -/
def Obligations.TransferWriteWaitFault : Prop :=
  ∀ (req : BitVec 4) (wdata : Word) (s : State),
    s.busy = false → s.cfg.valid = true → req.getLsbD 1 = false → ackAhead s = 0b010 ∨ ackAhead s = 0b100 →
    ∃ work cnt draws, exec (.transferWr req wdata) s = .next
      { s with pins := { clk := true, dioO := true, dioDir := dirAfter s .host }
               phase := .idle, cnt := cnt, work := work, draws := draws
               ret := some (.transfer (if ackAhead s = 0b010 then .wait else .fault) none)
               trace := s.trace ++ openingTrace req s ++ cycleEvents s.cfg.turnaround ++ dirEvents s.params .host ++
                 (if s.cfg.dataPhase then .d s.params.dummyWriteLevel :: cycleEvents 33 else []) ++ [.d true]
               script := s.script.drop 3
               samples := s.samples + 3 }

/-- R148: an unrecognised acknowledgement, on a read or a write: `T + 33` clock cycles whatever `DP` and `rnw` are, the line released
and nothing sampled, then `>H` and idle-high; PROTOCOL_ERROR with the pattern as sampled. -/
def Obligations.TransferProtocolError : Prop :=
  ∀ (i : Instr) (req : BitVec 4) (s : State),
    (i = .transferRd req ∨ ∃ wdata, i = .transferWr req wdata) → i.wf = true →
    s.busy = false → s.cfg.valid = true → ackAhead s ≠ 0b001 → ackAhead s ≠ 0b010 → ackAhead s ≠ 0b100 →
    ∃ work cnt draws, exec i s = .next
      { s with pins := { clk := true, dioO := true, dioDir := dirAfter s .host }
               phase := .idle, cnt := cnt, work := work, draws := draws
               ret := some (.transfer (.protocolError (ackAhead s)) none)
               trace := s.trace ++ openingTrace req s ++ cycleEvents (s.cfg.turnaround + 33) ++
                 dirEvents s.params .host ++ [.d true]
               script := s.script.drop 3
               samples := s.samples + 3 }

/-- R82 and R149: every operation issues exactly the clock cycles of the table of R82. -/
def Obligations.FrameLengths : Prop :=
  ∀ (i : Instr) (s t : State), exec i s = .next t → cycles t.trace = cycles s.trace + frameLength i s

/-- R211: `TRANSFER` ends after at most `44 + 2·TURN_MAX + IDLE_MAX` cycles when the configuration is legal, a sequence after at most
`GEN_MAX` or 64, `CFG_WRITE` at once. -/
def Obligations.FrameLengthsAreBounded : Prop :=
  ∀ (i : Instr) (s t : State), s.cfg.legal s.params → exec i s = .next t →
    cycles t.trace ≤ cycles s.trace + max (44 + 2 * s.params.turnMax + s.params.idleMax) (max 64 s.params.genMax) ∧
    (i.mnemonic = "CFG_WRITE" → t.trace = s.trace)

/-- R155: who drives the data line in each clock cycle of a transfer, and at which level, on every branch. -/
def Obligations.WhoDrivesEachCycle : Prop :=
  ∀ (req : BitVec 4) (wdata : Word) (i : Instr) (s t : State), s.params.hasDir = true →
    (i = .transferRd req ∨ i = .transferWr req wdata) → exec i s = .next t →
    ∃ evs, t.trace = s.trace ++ evs ∧ linePerCycle s.pins.dioDir s.pins.dioO evs = transferLines req wdata s

/-- R41 and R150: after every transfer, whatever its outcome, the engine is idle with both lines high and driven, and keeps no
record of it: the configuration, the buffers, the parameters and what waits at the port are what they were before. -/
def Obligations.TransferLeavesNoRecord : Prop :=
  ∀ (i : Instr) (s t : State), ((∃ req, i = .transferRd req) ∨ ∃ req w, i = .transferWr req w) → exec i s = .next t →
    t.pins = { clk := true, dioO := true, dioDir := dirAfter s .host } ∧ t.busy = false ∧
    t.cfg = s.cfg ∧ t.src = s.src ∧ t.dst = s.dst ∧ t.params = s.params ∧
    t.pending = s.pending ∧ t.uop = s.uop ∧ t.accesses = s.accesses

/-- R151: "On WAIT, FAULT or PROTOCOL_ERROR `wdata` is not sent: no bit of it reaches the wire": the run is the same for every
word. -/
def Obligations.UnacknowledgedWordIsNotSent : Prop :=
  ∀ (req : BitVec 4) (w w' : Word) (s : State), ackAhead s ≠ 0b001 →
    exec (.transferWr req w) s = exec (.transferWr req w') s

/-- R79 and R181: the result code a transfer returns: 1, 2, 4 for OK, WAIT, FAULT, the parameter for PARITY_ERROR (a read with an OK
acknowledgement only), the zero-extended pattern, one of five, for PROTOCOL_ERROR; a word exactly with OK on a read. -/
def Obligations.ResultCodes : Prop :=
  ∀ (i : Instr) (s t : State) (c : ResultClass) (d : Option Word),
    ((∃ req, i = .transferRd req) ∨ ∃ req w, i = .transferWr req w) → exec i s = .next t →
    t.ret = some (.transfer c d) →
    (d.isSome = true ↔ c = .ok ∧ ∃ req, i = .transferRd req) ∧
    (match c with
     | .ok => resCode s.params c = 1 ∧ ackAhead s = 0b001
     | .wait => resCode s.params c = 2 ∧ ackAhead s = 0b010
     | .fault => resCode s.params c = 4 ∧ ackAhead s = 0b100
     | .parityError => resCode s.params c = s.params.resParityError ∧ ackAhead s = 0b001 ∧ ∃ req, i = .transferRd req
     | .protocolError p => p = ackAhead s ∧ (resCode s.params c).toNat ∈ [0, 3, 5, 6, 7])

/-! ## The configuration write -/

/-- R170 (43_configuration.md): `CFG_WRITE` with legal values writes the four configuration registers, and changes nothing else:
no pin event, no clock cycle. -/
def Obligations.CfgWriteEffect : Prop :=
  ∀ (turnaround idle : BitVec 8) (dp : Bit) (s : State), s.busy = false →
    1 ≤ turnaround.toNat → turnaround.toNat ≤ s.params.turnMax → idle.toNat ≤ s.params.idleMax →
    exec (.cfgWrite turnaround idle dp) s = .next
      { s with cfg := { turnaround := turnaround.toNat, idle := idle.toNat, dataPhase := dp, valid := true }
               ret := some .nothing }

/-! ## Rules of the whole machine -/

/-- R172: "The engine never writes a configuration register itself": a step changes the configuration only by running a
`CFG_WRITE`. -/
def Obligations.OnlyCfgWriteChangesConfiguration : Prop :=
  ∀ s t : State, step s = .next t → t.cfg ≠ s.cfg →
    ∃ w s' a b c, fetch s = some (w, s') ∧ decode w = .ok (.cfgWrite a b c)

/-- R39, R40, R51, R52: SRC is read only and DST is written by captures only: a step changes SRC only by taking the buffer passed
beside a command, and DST only by taking the buffer passed beside a command, by running `XCHG_SEQ.IN`, or by a step of its
phase. -/
def Obligations.OnlyCapturesWriteBuffers : Prop :=
  ∀ s t : State, step s = .next t →
    (t.src ≠ s.src → ∃ c rest, s.pending = c :: rest ∧ c.src = some t.src) ∧
    (t.dst ≠ s.dst →
      (∃ c rest, s.pending = c :: rest ∧ c.dst = some t.dst) ∨
      (∃ w s' o, fetch s = some (w, s') ∧ decode w = .ok (.xchgSeqIn o)) ∨ s.phase = .seqIn)

/-- R58: pin events and buffer accesses are only added, none reordered or taken back, and the parameters stay. -/
def Obligations.RecordsOnlyGrow : Prop :=
  ∀ s t : State, step s = .next t →
    s.trace <+: t.trace ∧ s.accesses <+: t.accesses ∧ t.params = s.params

/-- R12, R21, R22, R23: the pin registers are written by pin events only: after every operation they are what its events make of
them, and dropping the events that change no register makes no difference. -/
def Obligations.PinsFollowTheTrace : Prop :=
  ∀ (i : Instr) (s t : State), exec i s = .next t →
    ∃ evs, t.trace = s.trace ++ evs ∧ replayPins s.pins evs = t.pins ∧
      replayPins s.pins (effective s.pins evs) = t.pins

/-- 92_eei_decisions.md D3 ("Claims about `CLK`, `DIO_O`, samples and results are unaffected"): without the direction register
every operation does the same but for the direction events and the register. -/
def Obligations.DirectionRegisterIsInvisible : Prop :=
  ∀ (i : Instr) (s t : State), exec i { s with params := { s.params with hasDir := true } } = .next t →
    ∃ u evs, exec i { s with params := { s.params with hasDir := false } } = .next u ∧
      t.trace = s.trace ++ evs ∧
      u.trace = s.trace ++ evs.filter (fun e => e ≠ .dir .host ∧ e ≠ .dir .target) ∧
      u.pins.clk = t.pins.clk ∧ u.pins.dioO = t.pins.dioO ∧ u.pins.dioDir = s.pins.dioDir ∧
      u.cfg = t.cfg ∧ u.dst = t.dst ∧ u.ret = t.ret ∧ u.script = t.script ∧ u.samples = t.samples

/-! ## The sequencer and the invariant -/

/-- R152 ("The table says the same as rules R130 to R148 and adds nothing") and R113: from the state in which a command leaves
`P_IDLE`, as many steps of the phase table as the operation has clock cycles reach the very state the operation's own rules
give. Stated for a configuration with `T ≥ 1` where it is written, which R26 guarantees. -/
def Obligations.SequencerRunsTheOperation : Prop :=
  ∀ (i : Instr) (s t : State), i.isMicroOp = false → i.mnemonic ≠ "CFG_WRITE" →
    (s.cfg.valid = true → 1 ≤ s.cfg.turnaround) → exec i s = .next t →
    runSequencer (frameLength i s) (startCommand i s) = .next t

/-- R25, R80, R103: in every phase but `P_IDLE`, with steps left, a step of the sequencer issues exactly one clock cycle, which is the
micro-operation its 3-bit word spells. -/
def Obligations.SequencerStepIsOneMicroOperation : Prop :=
  ∀ s : State, s.busy = true → 0 < s.cnt →
    ∃ t i u, sequencerStep s = .next t ∧ cycles t.trace = cycles s.trace + 1 ∧
      decodeUop (uopOf s) = .ok i ∧ exec i s = .next u ∧
      (phaseCycle s).trace = u.trace ∧ (phaseCycle s).pins = u.pins ∧
      (phaseCycle s).script = u.script ∧ (phaseCycle s).samples = u.samples

/-- The invariant holds right after reset. -/
def Obligations.ResetMeetsInvariant : Prop := Inv State.reset

/-- Every step from a state that meets the invariant leads to one that meets it: the clock rests high (R21), the configuration
stays legal (R26, R27), the buffers stay canonical, and a phase in progress keeps its counters, its direction of the line and
its levels (R25, R113, R152, R155). -/
def Obligations.StepKeepsInvariant : Prop :=
  ∀ s t : State, Inv s → step s = .next t → Inv t

/-- R25: `CNT` "never exceeds `max(TURN_MAX + 33, IDLE_MAX, 64, GEN_MAX)`", in every state that meets the invariant, while an
operation is in progress. -/
def Obligations.CountStaysWithinBound : Prop :=
  ∀ s : State, Inv s → s.busy = true → 0 < s.cnt ∧ s.cnt ≤ cntBound s.params

/-- R180: no operation raises an exception: no operation faults in any state, and no step faults in a state that meets the
invariant. -/
def Obligations.NothingFaults : Prop :=
  (∀ (i : Instr) (s : State) (f : Fault), exec i s ≠ .fault f) ∧
  (∀ (s : State) (f : Fault), Inv s → step s ≠ .fault f)

/-- R154 and R201: an operation in progress runs to completion: from a state that meets the invariant, with nothing presented, the
sequencer reaches `P_IDLE` within the longest operation's number of steps, whatever the line answers. -/
def Obligations.OperationInProgressCompletes : Prop :=
  ∀ s : State, Inv s → ∃ t,
    runSequencer (max (44 + 2 * s.params.turnMax + s.params.idleMax) (max 64 s.params.genMax)) s = .next t ∧ t.busy = false
end

