-- ==== Sys2Proof/Laws/State.lean ====
section
/-! SUPPORT. The small lemmas of the state updates: one per field per update, each true by rfl, so that no later proof unfolds a
record update. -/

namespace Sys2Proof.Machine

/-! ### setClk -/

@[simp] theorem setClk_pins (b : Bit) (s : State) : (setClk b s).pins = { s.pins with clk := b } := rfl
@[simp] theorem setClk_cfg (b : Bit) (s : State) : (setClk b s).cfg = s.cfg := rfl
@[simp] theorem setClk_phase (b : Bit) (s : State) : (setClk b s).phase = s.phase := rfl
@[simp] theorem setClk_cnt (b : Bit) (s : State) : (setClk b s).cnt = s.cnt := rfl
@[simp] theorem setClk_work (b : Bit) (s : State) : (setClk b s).work = s.work := rfl
@[simp] theorem setClk_src (b : Bit) (s : State) : (setClk b s).src = s.src := rfl
@[simp] theorem setClk_dst (b : Bit) (s : State) : (setClk b s).dst = s.dst := rfl
@[simp] theorem setClk_pending (b : Bit) (s : State) : (setClk b s).pending = s.pending := rfl
@[simp] theorem setClk_uop (b : Bit) (s : State) : (setClk b s).uop = s.uop := rfl
@[simp] theorem setClk_ret (b : Bit) (s : State) : (setClk b s).ret = s.ret := rfl
@[simp] theorem setClk_trace (b : Bit) (s : State) : (setClk b s).trace = s.trace ++ [if b then .k1 else .k0] := rfl
@[simp] theorem setClk_accesses (b : Bit) (s : State) : (setClk b s).accesses = s.accesses := rfl
@[simp] theorem setClk_script (b : Bit) (s : State) : (setClk b s).script = s.script := rfl
@[simp] theorem setClk_samples (b : Bit) (s : State) : (setClk b s).samples = s.samples := rfl
@[simp] theorem setClk_draws (b : Bit) (s : State) : (setClk b s).draws = s.draws := rfl
@[simp] theorem setClk_params (b : Bit) (s : State) : (setClk b s).params = s.params := rfl

/-! ### setDio -/

@[simp] theorem setDio_pins (b : Bit) (s : State) : (setDio b s).pins = { s.pins with dioO := b } := rfl
@[simp] theorem setDio_cfg (b : Bit) (s : State) : (setDio b s).cfg = s.cfg := rfl
@[simp] theorem setDio_phase (b : Bit) (s : State) : (setDio b s).phase = s.phase := rfl
@[simp] theorem setDio_cnt (b : Bit) (s : State) : (setDio b s).cnt = s.cnt := rfl
@[simp] theorem setDio_work (b : Bit) (s : State) : (setDio b s).work = s.work := rfl
@[simp] theorem setDio_src (b : Bit) (s : State) : (setDio b s).src = s.src := rfl
@[simp] theorem setDio_dst (b : Bit) (s : State) : (setDio b s).dst = s.dst := rfl
@[simp] theorem setDio_pending (b : Bit) (s : State) : (setDio b s).pending = s.pending := rfl
@[simp] theorem setDio_uop (b : Bit) (s : State) : (setDio b s).uop = s.uop := rfl
@[simp] theorem setDio_ret (b : Bit) (s : State) : (setDio b s).ret = s.ret := rfl
@[simp] theorem setDio_trace (b : Bit) (s : State) : (setDio b s).trace = s.trace ++ [.d b] := rfl
@[simp] theorem setDio_accesses (b : Bit) (s : State) : (setDio b s).accesses = s.accesses := rfl
@[simp] theorem setDio_script (b : Bit) (s : State) : (setDio b s).script = s.script := rfl
@[simp] theorem setDio_samples (b : Bit) (s : State) : (setDio b s).samples = s.samples := rfl
@[simp] theorem setDio_draws (b : Bit) (s : State) : (setDio b s).draws = s.draws := rfl
@[simp] theorem setDio_params (b : Bit) (s : State) : (setDio b s).params = s.params := rfl

/-! ### setPhase -/

@[simp] theorem setPhase_pins (p : Phase) (s : State) : (setPhase p s).pins = s.pins := rfl
@[simp] theorem setPhase_cfg (p : Phase) (s : State) : (setPhase p s).cfg = s.cfg := rfl
@[simp] theorem setPhase_phase (p : Phase) (s : State) : (setPhase p s).phase = p := rfl
@[simp] theorem setPhase_cnt (p : Phase) (s : State) : (setPhase p s).cnt = s.cnt := rfl
@[simp] theorem setPhase_work (p : Phase) (s : State) : (setPhase p s).work = s.work := rfl
@[simp] theorem setPhase_src (p : Phase) (s : State) : (setPhase p s).src = s.src := rfl
@[simp] theorem setPhase_dst (p : Phase) (s : State) : (setPhase p s).dst = s.dst := rfl
@[simp] theorem setPhase_pending (p : Phase) (s : State) : (setPhase p s).pending = s.pending := rfl
@[simp] theorem setPhase_uop (p : Phase) (s : State) : (setPhase p s).uop = s.uop := rfl
@[simp] theorem setPhase_ret (p : Phase) (s : State) : (setPhase p s).ret = s.ret := rfl
@[simp] theorem setPhase_trace (p : Phase) (s : State) : (setPhase p s).trace = s.trace := rfl
@[simp] theorem setPhase_accesses (p : Phase) (s : State) : (setPhase p s).accesses = s.accesses := rfl
@[simp] theorem setPhase_script (p : Phase) (s : State) : (setPhase p s).script = s.script := rfl
@[simp] theorem setPhase_samples (p : Phase) (s : State) : (setPhase p s).samples = s.samples := rfl
@[simp] theorem setPhase_draws (p : Phase) (s : State) : (setPhase p s).draws = s.draws := rfl
@[simp] theorem setPhase_params (p : Phase) (s : State) : (setPhase p s).params = s.params := rfl

/-! ### setPar -/

@[simp] theorem setPar_pins (b : Bit) (s : State) : (setPar b s).pins = s.pins := rfl
@[simp] theorem setPar_cfg (b : Bit) (s : State) : (setPar b s).cfg = s.cfg := rfl
@[simp] theorem setPar_phase (b : Bit) (s : State) : (setPar b s).phase = s.phase := rfl
@[simp] theorem setPar_cnt (b : Bit) (s : State) : (setPar b s).cnt = s.cnt := rfl
@[simp] theorem setPar_work (b : Bit) (s : State) : (setPar b s).work = { s.work with par := b } := rfl
@[simp] theorem setPar_src (b : Bit) (s : State) : (setPar b s).src = s.src := rfl
@[simp] theorem setPar_dst (b : Bit) (s : State) : (setPar b s).dst = s.dst := rfl
@[simp] theorem setPar_pending (b : Bit) (s : State) : (setPar b s).pending = s.pending := rfl
@[simp] theorem setPar_uop (b : Bit) (s : State) : (setPar b s).uop = s.uop := rfl
@[simp] theorem setPar_ret (b : Bit) (s : State) : (setPar b s).ret = s.ret := rfl
@[simp] theorem setPar_trace (b : Bit) (s : State) : (setPar b s).trace = s.trace := rfl
@[simp] theorem setPar_accesses (b : Bit) (s : State) : (setPar b s).accesses = s.accesses := rfl
@[simp] theorem setPar_script (b : Bit) (s : State) : (setPar b s).script = s.script := rfl
@[simp] theorem setPar_samples (b : Bit) (s : State) : (setPar b s).samples = s.samples := rfl
@[simp] theorem setPar_draws (b : Bit) (s : State) : (setPar b s).draws = s.draws := rfl
@[simp] theorem setPar_params (b : Bit) (s : State) : (setPar b s).params = s.params := rfl

/-! ### foldPar -/

@[simp] theorem foldPar_pins (b : Bit) (s : State) : (foldPar b s).pins = s.pins := rfl
@[simp] theorem foldPar_cfg (b : Bit) (s : State) : (foldPar b s).cfg = s.cfg := rfl
@[simp] theorem foldPar_phase (b : Bit) (s : State) : (foldPar b s).phase = s.phase := rfl
@[simp] theorem foldPar_cnt (b : Bit) (s : State) : (foldPar b s).cnt = s.cnt := rfl
@[simp] theorem foldPar_work (b : Bit) (s : State) : (foldPar b s).work = { s.work with par := s.work.par ^^ b } := rfl
@[simp] theorem foldPar_src (b : Bit) (s : State) : (foldPar b s).src = s.src := rfl
@[simp] theorem foldPar_dst (b : Bit) (s : State) : (foldPar b s).dst = s.dst := rfl
@[simp] theorem foldPar_pending (b : Bit) (s : State) : (foldPar b s).pending = s.pending := rfl
@[simp] theorem foldPar_uop (b : Bit) (s : State) : (foldPar b s).uop = s.uop := rfl
@[simp] theorem foldPar_ret (b : Bit) (s : State) : (foldPar b s).ret = s.ret := rfl
@[simp] theorem foldPar_trace (b : Bit) (s : State) : (foldPar b s).trace = s.trace := rfl
@[simp] theorem foldPar_accesses (b : Bit) (s : State) : (foldPar b s).accesses = s.accesses := rfl
@[simp] theorem foldPar_script (b : Bit) (s : State) : (foldPar b s).script = s.script := rfl
@[simp] theorem foldPar_samples (b : Bit) (s : State) : (foldPar b s).samples = s.samples := rfl
@[simp] theorem foldPar_draws (b : Bit) (s : State) : (foldPar b s).draws = s.draws := rfl
@[simp] theorem foldPar_params (b : Bit) (s : State) : (foldPar b s).params = s.params := rfl

/-! ### setRes -/

@[simp] theorem setRes_pins (c : ResultClass) (s : State) : (setRes c s).pins = s.pins := rfl
@[simp] theorem setRes_cfg (c : ResultClass) (s : State) : (setRes c s).cfg = s.cfg := rfl
@[simp] theorem setRes_phase (c : ResultClass) (s : State) : (setRes c s).phase = s.phase := rfl
@[simp] theorem setRes_cnt (c : ResultClass) (s : State) : (setRes c s).cnt = s.cnt := rfl
@[simp] theorem setRes_work (c : ResultClass) (s : State) : (setRes c s).work = { s.work with res := c } := rfl
@[simp] theorem setRes_src (c : ResultClass) (s : State) : (setRes c s).src = s.src := rfl
@[simp] theorem setRes_dst (c : ResultClass) (s : State) : (setRes c s).dst = s.dst := rfl
@[simp] theorem setRes_pending (c : ResultClass) (s : State) : (setRes c s).pending = s.pending := rfl
@[simp] theorem setRes_uop (c : ResultClass) (s : State) : (setRes c s).uop = s.uop := rfl
@[simp] theorem setRes_ret (c : ResultClass) (s : State) : (setRes c s).ret = s.ret := rfl
@[simp] theorem setRes_trace (c : ResultClass) (s : State) : (setRes c s).trace = s.trace := rfl
@[simp] theorem setRes_accesses (c : ResultClass) (s : State) : (setRes c s).accesses = s.accesses := rfl
@[simp] theorem setRes_script (c : ResultClass) (s : State) : (setRes c s).script = s.script := rfl
@[simp] theorem setRes_samples (c : ResultClass) (s : State) : (setRes c s).samples = s.samples := rfl
@[simp] theorem setRes_draws (c : ResultClass) (s : State) : (setRes c s).draws = s.draws := rfl
@[simp] theorem setRes_params (c : ResultClass) (s : State) : (setRes c s).params = s.params := rfl

/-! ### setData -/

@[simp] theorem setData_pins (w : Word) (s : State) : (setData w s).pins = s.pins := rfl
@[simp] theorem setData_cfg (w : Word) (s : State) : (setData w s).cfg = s.cfg := rfl
@[simp] theorem setData_phase (w : Word) (s : State) : (setData w s).phase = s.phase := rfl
@[simp] theorem setData_cnt (w : Word) (s : State) : (setData w s).cnt = s.cnt := rfl
@[simp] theorem setData_work (w : Word) (s : State) : (setData w s).work = { s.work with data := w } := rfl
@[simp] theorem setData_src (w : Word) (s : State) : (setData w s).src = s.src := rfl
@[simp] theorem setData_dst (w : Word) (s : State) : (setData w s).dst = s.dst := rfl
@[simp] theorem setData_pending (w : Word) (s : State) : (setData w s).pending = s.pending := rfl
@[simp] theorem setData_uop (w : Word) (s : State) : (setData w s).uop = s.uop := rfl
@[simp] theorem setData_ret (w : Word) (s : State) : (setData w s).ret = s.ret := rfl
@[simp] theorem setData_trace (w : Word) (s : State) : (setData w s).trace = s.trace := rfl
@[simp] theorem setData_accesses (w : Word) (s : State) : (setData w s).accesses = s.accesses := rfl
@[simp] theorem setData_script (w : Word) (s : State) : (setData w s).script = s.script := rfl
@[simp] theorem setData_samples (w : Word) (s : State) : (setData w s).samples = s.samples := rfl
@[simp] theorem setData_draws (w : Word) (s : State) : (setData w s).draws = s.draws := rfl
@[simp] theorem setData_params (w : Word) (s : State) : (setData w s).params = s.params := rfl

/-! ### setDataBit -/

@[simp] theorem setDataBit_pins (i : Nat) (b : Bit) (s : State) : (setDataBit i b s).pins = s.pins := rfl
@[simp] theorem setDataBit_cfg (i : Nat) (b : Bit) (s : State) : (setDataBit i b s).cfg = s.cfg := rfl
@[simp] theorem setDataBit_phase (i : Nat) (b : Bit) (s : State) : (setDataBit i b s).phase = s.phase := rfl
@[simp] theorem setDataBit_cnt (i : Nat) (b : Bit) (s : State) : (setDataBit i b s).cnt = s.cnt := rfl
@[simp] theorem setDataBit_work (i : Nat) (b : Bit) (s : State) : (setDataBit i b s).work = { s.work with data := setBit s.work.data i b } := rfl
@[simp] theorem setDataBit_src (i : Nat) (b : Bit) (s : State) : (setDataBit i b s).src = s.src := rfl
@[simp] theorem setDataBit_dst (i : Nat) (b : Bit) (s : State) : (setDataBit i b s).dst = s.dst := rfl
@[simp] theorem setDataBit_pending (i : Nat) (b : Bit) (s : State) : (setDataBit i b s).pending = s.pending := rfl
@[simp] theorem setDataBit_uop (i : Nat) (b : Bit) (s : State) : (setDataBit i b s).uop = s.uop := rfl
@[simp] theorem setDataBit_ret (i : Nat) (b : Bit) (s : State) : (setDataBit i b s).ret = s.ret := rfl
@[simp] theorem setDataBit_trace (i : Nat) (b : Bit) (s : State) : (setDataBit i b s).trace = s.trace := rfl
@[simp] theorem setDataBit_accesses (i : Nat) (b : Bit) (s : State) : (setDataBit i b s).accesses = s.accesses := rfl
@[simp] theorem setDataBit_script (i : Nat) (b : Bit) (s : State) : (setDataBit i b s).script = s.script := rfl
@[simp] theorem setDataBit_samples (i : Nat) (b : Bit) (s : State) : (setDataBit i b s).samples = s.samples := rfl
@[simp] theorem setDataBit_draws (i : Nat) (b : Bit) (s : State) : (setDataBit i b s).draws = s.draws := rfl
@[simp] theorem setDataBit_params (i : Nat) (b : Bit) (s : State) : (setDataBit i b s).params = s.params := rfl

/-! ### setAckBit -/

@[simp] theorem setAckBit_pins (i : Nat) (b : Bit) (s : State) : (setAckBit i b s).pins = s.pins := rfl
@[simp] theorem setAckBit_cfg (i : Nat) (b : Bit) (s : State) : (setAckBit i b s).cfg = s.cfg := rfl
@[simp] theorem setAckBit_phase (i : Nat) (b : Bit) (s : State) : (setAckBit i b s).phase = s.phase := rfl
@[simp] theorem setAckBit_cnt (i : Nat) (b : Bit) (s : State) : (setAckBit i b s).cnt = s.cnt := rfl
@[simp] theorem setAckBit_work (i : Nat) (b : Bit) (s : State) : (setAckBit i b s).work = { s.work with ack := setBit s.work.ack i b } := rfl
@[simp] theorem setAckBit_src (i : Nat) (b : Bit) (s : State) : (setAckBit i b s).src = s.src := rfl
@[simp] theorem setAckBit_dst (i : Nat) (b : Bit) (s : State) : (setAckBit i b s).dst = s.dst := rfl
@[simp] theorem setAckBit_pending (i : Nat) (b : Bit) (s : State) : (setAckBit i b s).pending = s.pending := rfl
@[simp] theorem setAckBit_uop (i : Nat) (b : Bit) (s : State) : (setAckBit i b s).uop = s.uop := rfl
@[simp] theorem setAckBit_ret (i : Nat) (b : Bit) (s : State) : (setAckBit i b s).ret = s.ret := rfl
@[simp] theorem setAckBit_trace (i : Nat) (b : Bit) (s : State) : (setAckBit i b s).trace = s.trace := rfl
@[simp] theorem setAckBit_accesses (i : Nat) (b : Bit) (s : State) : (setAckBit i b s).accesses = s.accesses := rfl
@[simp] theorem setAckBit_script (i : Nat) (b : Bit) (s : State) : (setAckBit i b s).script = s.script := rfl
@[simp] theorem setAckBit_samples (i : Nat) (b : Bit) (s : State) : (setAckBit i b s).samples = s.samples := rfl
@[simp] theorem setAckBit_draws (i : Nat) (b : Bit) (s : State) : (setAckBit i b s).draws = s.draws := rfl
@[simp] theorem setAckBit_params (i : Nat) (b : Bit) (s : State) : (setAckBit i b s).params = s.params := rfl

/-! ### setReq -/

@[simp] theorem setReq_pins (r : BitVec 4) (s : State) : (setReq r s).pins = s.pins := rfl
@[simp] theorem setReq_cfg (r : BitVec 4) (s : State) : (setReq r s).cfg = s.cfg := rfl
@[simp] theorem setReq_phase (r : BitVec 4) (s : State) : (setReq r s).phase = s.phase := rfl
@[simp] theorem setReq_cnt (r : BitVec 4) (s : State) : (setReq r s).cnt = s.cnt := rfl
@[simp] theorem setReq_work (r : BitVec 4) (s : State) : (setReq r s).work = { s.work with req := r } := rfl
@[simp] theorem setReq_src (r : BitVec 4) (s : State) : (setReq r s).src = s.src := rfl
@[simp] theorem setReq_dst (r : BitVec 4) (s : State) : (setReq r s).dst = s.dst := rfl
@[simp] theorem setReq_pending (r : BitVec 4) (s : State) : (setReq r s).pending = s.pending := rfl
@[simp] theorem setReq_uop (r : BitVec 4) (s : State) : (setReq r s).uop = s.uop := rfl
@[simp] theorem setReq_ret (r : BitVec 4) (s : State) : (setReq r s).ret = s.ret := rfl
@[simp] theorem setReq_trace (r : BitVec 4) (s : State) : (setReq r s).trace = s.trace := rfl
@[simp] theorem setReq_accesses (r : BitVec 4) (s : State) : (setReq r s).accesses = s.accesses := rfl
@[simp] theorem setReq_script (r : BitVec 4) (s : State) : (setReq r s).script = s.script := rfl
@[simp] theorem setReq_samples (r : BitVec 4) (s : State) : (setReq r s).samples = s.samples := rfl
@[simp] theorem setReq_draws (r : BitVec 4) (s : State) : (setReq r s).draws = s.draws := rfl
@[simp] theorem setReq_params (r : BitVec 4) (s : State) : (setReq r s).params = s.params := rfl

/-! ### returned -/

@[simp] theorem returned_pins (r : Return) (s : State) : (returned r s).pins = s.pins := rfl
@[simp] theorem returned_cfg (r : Return) (s : State) : (returned r s).cfg = s.cfg := rfl
@[simp] theorem returned_phase (r : Return) (s : State) : (returned r s).phase = s.phase := rfl
@[simp] theorem returned_cnt (r : Return) (s : State) : (returned r s).cnt = s.cnt := rfl
@[simp] theorem returned_work (r : Return) (s : State) : (returned r s).work = s.work := rfl
@[simp] theorem returned_src (r : Return) (s : State) : (returned r s).src = s.src := rfl
@[simp] theorem returned_dst (r : Return) (s : State) : (returned r s).dst = s.dst := rfl
@[simp] theorem returned_pending (r : Return) (s : State) : (returned r s).pending = s.pending := rfl
@[simp] theorem returned_uop (r : Return) (s : State) : (returned r s).uop = s.uop := rfl
@[simp] theorem returned_ret (r : Return) (s : State) : (returned r s).ret = some r := rfl
@[simp] theorem returned_trace (r : Return) (s : State) : (returned r s).trace = s.trace := rfl
@[simp] theorem returned_accesses (r : Return) (s : State) : (returned r s).accesses = s.accesses := rfl
@[simp] theorem returned_script (r : Return) (s : State) : (returned r s).script = s.script := rfl
@[simp] theorem returned_samples (r : Return) (s : State) : (returned r s).samples = s.samples := rfl
@[simp] theorem returned_draws (r : Return) (s : State) : (returned r s).draws = s.draws := rfl
@[simp] theorem returned_params (r : Return) (s : State) : (returned r s).params = s.params := rfl

/-! ### memWriteDst -/

@[simp] theorem memWriteDst_pins (k : Nat) (v : Byte) (s : State) : (memWriteDst k v s).pins = s.pins := rfl
@[simp] theorem memWriteDst_cfg (k : Nat) (v : Byte) (s : State) : (memWriteDst k v s).cfg = s.cfg := rfl
@[simp] theorem memWriteDst_phase (k : Nat) (v : Byte) (s : State) : (memWriteDst k v s).phase = s.phase := rfl
@[simp] theorem memWriteDst_cnt (k : Nat) (v : Byte) (s : State) : (memWriteDst k v s).cnt = s.cnt := rfl
@[simp] theorem memWriteDst_work (k : Nat) (v : Byte) (s : State) : (memWriteDst k v s).work = s.work := rfl
@[simp] theorem memWriteDst_src (k : Nat) (v : Byte) (s : State) : (memWriteDst k v s).src = s.src := rfl
@[simp] theorem memWriteDst_dst (k : Nat) (v : Byte) (s : State) : (memWriteDst k v s).dst = s.dst.write k v := rfl
@[simp] theorem memWriteDst_pending (k : Nat) (v : Byte) (s : State) : (memWriteDst k v s).pending = s.pending := rfl
@[simp] theorem memWriteDst_uop (k : Nat) (v : Byte) (s : State) : (memWriteDst k v s).uop = s.uop := rfl
@[simp] theorem memWriteDst_ret (k : Nat) (v : Byte) (s : State) : (memWriteDst k v s).ret = s.ret := rfl
@[simp] theorem memWriteDst_trace (k : Nat) (v : Byte) (s : State) : (memWriteDst k v s).trace = s.trace := rfl
@[simp] theorem memWriteDst_accesses (k : Nat) (v : Byte) (s : State) : (memWriteDst k v s).accesses = s.accesses ++ [.write k v s.trace.length] := rfl
@[simp] theorem memWriteDst_script (k : Nat) (v : Byte) (s : State) : (memWriteDst k v s).script = s.script := rfl
@[simp] theorem memWriteDst_samples (k : Nat) (v : Byte) (s : State) : (memWriteDst k v s).samples = s.samples := rfl
@[simp] theorem memWriteDst_draws (k : Nat) (v : Byte) (s : State) : (memWriteDst k v s).draws = s.draws := rfl
@[simp] theorem memWriteDst_params (k : Nat) (v : Byte) (s : State) : (memWriteDst k v s).params = s.params := rfl

/-! ### finish -/

@[simp] theorem finish_pins (r : Return) (s : State) : (finish r s).pins = s.pins := rfl
@[simp] theorem finish_cfg (r : Return) (s : State) : (finish r s).cfg = s.cfg := rfl
@[simp] theorem finish_phase (r : Return) (s : State) : (finish r s).phase = .idle := rfl
@[simp] theorem finish_cnt (r : Return) (s : State) : (finish r s).cnt = 0 := rfl
@[simp] theorem finish_work (r : Return) (s : State) : (finish r s).work = Work.free s.draws := rfl
@[simp] theorem finish_src (r : Return) (s : State) : (finish r s).src = s.src := rfl
@[simp] theorem finish_dst (r : Return) (s : State) : (finish r s).dst = s.dst := rfl
@[simp] theorem finish_pending (r : Return) (s : State) : (finish r s).pending = s.pending := rfl
@[simp] theorem finish_uop (r : Return) (s : State) : (finish r s).uop = s.uop := rfl
@[simp] theorem finish_ret (r : Return) (s : State) : (finish r s).ret = some r := rfl
@[simp] theorem finish_trace (r : Return) (s : State) : (finish r s).trace = s.trace := rfl
@[simp] theorem finish_accesses (r : Return) (s : State) : (finish r s).accesses = s.accesses := rfl
@[simp] theorem finish_script (r : Return) (s : State) : (finish r s).script = s.script := rfl
@[simp] theorem finish_samples (r : Return) (s : State) : (finish r s).samples = s.samples := rfl
@[simp] theorem finish_draws (r : Return) (s : State) : (finish r s).draws = s.draws + 1 := rfl
@[simp] theorem finish_params (r : Return) (s : State) : (finish r s).params = s.params := rfl

/-! ### accept -/

@[simp] theorem accept_pins (c : Command) (rest : List Command) (s : State) : (accept c rest s).pins = s.pins := rfl
@[simp] theorem accept_cfg (c : Command) (rest : List Command) (s : State) : (accept c rest s).cfg = s.cfg := rfl
@[simp] theorem accept_phase (c : Command) (rest : List Command) (s : State) : (accept c rest s).phase = s.phase := rfl
@[simp] theorem accept_cnt (c : Command) (rest : List Command) (s : State) : (accept c rest s).cnt = s.cnt := rfl
@[simp] theorem accept_work (c : Command) (rest : List Command) (s : State) : (accept c rest s).work = s.work := rfl
@[simp] theorem accept_uop (c : Command) (rest : List Command) (s : State) : (accept c rest s).uop = s.uop := rfl
@[simp] theorem accept_ret (c : Command) (rest : List Command) (s : State) : (accept c rest s).ret = s.ret := rfl
@[simp] theorem accept_trace (c : Command) (rest : List Command) (s : State) : (accept c rest s).trace = s.trace := rfl
@[simp] theorem accept_accesses (c : Command) (rest : List Command) (s : State) : (accept c rest s).accesses = s.accesses := rfl
@[simp] theorem accept_script (c : Command) (rest : List Command) (s : State) : (accept c rest s).script = s.script := rfl
@[simp] theorem accept_samples (c : Command) (rest : List Command) (s : State) : (accept c rest s).samples = s.samples := rfl
@[simp] theorem accept_draws (c : Command) (rest : List Command) (s : State) : (accept c rest s).draws = s.draws := rfl
@[simp] theorem accept_params (c : Command) (rest : List Command) (s : State) : (accept c rest s).params = s.params := rfl
@[simp] theorem accept_pending (c : Command) (rest : List Command) (s : State) : (accept c rest s).pending = rest := rfl
@[simp] theorem accept_src (c : Command) (rest : List Command) (s : State) : (accept c rest s).src = c.src.getD s.src := rfl
@[simp] theorem accept_dst (c : Command) (rest : List Command) (s : State) : (accept c rest s).dst = c.dst.getD s.dst := rfl

end Sys2Proof.Machine
end

