-- ==== Sys2Proof/Laws/Memory.lean ====
section
/-! SUPPORT. The bit buffers: a read after a write, and the canonical form that every write keeps. -/

namespace Sys2Proof.Machine

@[simp] theorem Memory.read_nil (k : Nat) : Memory.read [] k = none := rfl

/-- Every key of a canonical buffer's tail lies above its first key. -/
theorem Memory.wf_tail {a : Nat} {x : Byte} {m : Memory} (h : Memory.wf ((a, x) :: m) = true) : m.wf = true := by
  cases m with
  | nil => rfl
  | cons c m => simp [Memory.wf] at h; exact h.2

/-- A buffer whose first key lies above `a` stays canonical with a byte at `a` in front. -/
theorem Memory.wf_cons {a : Nat} {x : Byte} {m : Memory} (hm : m.wf = true)
    (h : ∀ b y m', m = (b, y) :: m' → a < b) : Memory.wf ((a, x) :: m) = true := by
  cases m with
  | nil => rfl
  | cons c m => simp [Memory.wf, hm, h c.1 c.2 m rfl]

theorem Memory.wf_head_lt {a b : Nat} {x y : Byte} {m : Memory} (h : Memory.wf ((a, x) :: (b, y) :: m) = true) : a < b := by
  simp [Memory.wf] at h; exact h.1

/-- The first key after a write is the written key or the old first key. -/
theorem Memory.write_head {m : Memory} {k : Nat} {v : Byte} {b : Nat} {y : Byte} {m' : Memory}
    (h : m.write k v = (b, y) :: m') : b = k ∨ ∃ x n, m = (b, x) :: n := by
  cases m with
  | nil => simp [Memory.write] at h; exact .inl h.1.1.symm
  | cons c m =>
    obtain ⟨a, x⟩ := c
    simp only [Memory.write] at h
    split at h
    · cases h; exact .inl rfl
    · split at h
      · cases h; exact .inl rfl
      · cases h; exact .inr ⟨_, _, rfl⟩

/-- Every write keeps the canonical form. -/
theorem Memory.write_wf {m : Memory} (hm : m.wf = true) (k : Nat) (v : Byte) : (m.write k v).wf = true := by
  induction m with
  | nil => rfl
  | cons c m ih =>
    obtain ⟨a, x⟩ := c
    simp only [Memory.write]
    split
    · next hk => simp [Memory.wf, hk, hm]
    · split
      · next hka =>
        subst hka
        exact Memory.wf_cons (Memory.wf_tail hm) fun b y m' e => by subst e; exact Memory.wf_head_lt hm
      · next hk hka =>
        refine Memory.wf_cons (ih (Memory.wf_tail hm)) fun b y m' e => ?_
        rcases Memory.write_head e with rfl | ⟨x', n, rfl⟩
        · omega
        · exact Memory.wf_head_lt hm

/-- A read after a write to the same byte gives the value written. -/
@[simp] theorem Memory.read_write_same (m : Memory) (k : Nat) (v : Byte) : (m.write k v).read k = some v := by
  induction m with
  | nil => simp [Memory.write, Memory.read]
  | cons c m ih =>
    obtain ⟨a, x⟩ := c
    simp only [Memory.write]
    split
    · simp [Memory.read]
    · split
      · simp [Memory.read]
      · next hka => simp [Memory.read, ih, Ne.symm hka]

/-- A write leaves every other byte alone. -/
theorem Memory.read_write_other (m : Memory) {k j : Nat} (v : Byte) (h : j ≠ k) : (m.write k v).read j = m.read j := by
  induction m with
  | nil => simp [Memory.write, Memory.read, Ne.symm h]
  | cons c m ih =>
    obtain ⟨a, x⟩ := c
    simp only [Memory.write]
    split
    · simp [Memory.read, Ne.symm h]
    · split
      · next hka => subst hka; simp [Memory.read, Ne.symm h]
      · simp [Memory.read, ih]

/-- A buffer made of bytes holds them at 0, 1, … -/
theorem Memory.read_ofBytes (vs : List Byte) (k j : Nat) (hj : j < vs.length) :
    (Memory.ofBytes vs k).read (k + j) = some vs[j] := by
  induction vs generalizing k j with
  | nil => simp at hj
  | cons v vs ih =>
    cases j with
    | zero => simp [Memory.ofBytes, Memory.read]
    | succ j =>
      have := ih (k + 1) j (by simpa using hj)
      rw [show k + 1 + j = k + (j + 1) by omega] at this
      simp [Memory.ofBytes, Memory.read, this]

end Sys2Proof.Machine
end

