-- ==== Sys2Proof/Laws/Ops.lean ====
section
/-! SUPPORT. What each shared operation can do, said once: field by field for the pin operations and the three bit-clock
cycles, and by inversion for the tests before an operation, the nine meanings, fetching and the step. -/

namespace Sys2Proof.Machine

/-! ### setDir -/

@[simp] theorem setDir_pins (way : Dir) (s : State) : (setDir way s).pins = { s.pins with dioDir := dirAfter s way } := by
  cases h : s.params.hasDir <;> simp [setDir, dirAfter, h]
@[simp] theorem setDir_cfg (way : Dir) (s : State) : (setDir way s).cfg = s.cfg := by unfold setDir; split <;> rfl
@[simp] theorem setDir_phase (way : Dir) (s : State) : (setDir way s).phase = s.phase := by unfold setDir; split <;> rfl
@[simp] theorem setDir_cnt (way : Dir) (s : State) : (setDir way s).cnt = s.cnt := by unfold setDir; split <;> rfl
@[simp] theorem setDir_work (way : Dir) (s : State) : (setDir way s).work = s.work := by unfold setDir; split <;> rfl
@[simp] theorem setDir_src (way : Dir) (s : State) : (setDir way s).src = s.src := by unfold setDir; split <;> rfl
@[simp] theorem setDir_dst (way : Dir) (s : State) : (setDir way s).dst = s.dst := by unfold setDir; split <;> rfl
@[simp] theorem setDir_pending (way : Dir) (s : State) : (setDir way s).pending = s.pending := by unfold setDir; split <;> rfl
@[simp] theorem setDir_uop (way : Dir) (s : State) : (setDir way s).uop = s.uop := by unfold setDir; split <;> rfl
@[simp] theorem setDir_ret (way : Dir) (s : State) : (setDir way s).ret = s.ret := by unfold setDir; split <;> rfl
@[simp] theorem setDir_trace (way : Dir) (s : State) : (setDir way s).trace = s.trace ++ dirEvents s.params way := by
  cases h : s.params.hasDir <;> simp [setDir, dirEvents, h]
@[simp] theorem setDir_accesses (way : Dir) (s : State) : (setDir way s).accesses = s.accesses := by unfold setDir; split <;> rfl
@[simp] theorem setDir_script (way : Dir) (s : State) : (setDir way s).script = s.script := by unfold setDir; split <;> rfl
@[simp] theorem setDir_samples (way : Dir) (s : State) : (setDir way s).samples = s.samples := by unfold setDir; split <;> rfl
@[simp] theorem setDir_draws (way : Dir) (s : State) : (setDir way s).draws = s.draws := by unfold setDir; split <;> rfl
@[simp] theorem setDir_params (way : Dir) (s : State) : (setDir way s).params = s.params := by unfold setDir; split <;> rfl

/-! ### writeBit -/

@[simp] theorem writeBit_pins (v : Bit) (s : State) : (writeBit v s).pins = { s.pins with dioO := v, clk := true } := rfl
@[simp] theorem writeBit_cfg (v : Bit) (s : State) : (writeBit v s).cfg = s.cfg := rfl
@[simp] theorem writeBit_phase (v : Bit) (s : State) : (writeBit v s).phase = s.phase := rfl
@[simp] theorem writeBit_cnt (v : Bit) (s : State) : (writeBit v s).cnt = s.cnt := rfl
@[simp] theorem writeBit_work (v : Bit) (s : State) : (writeBit v s).work = s.work := rfl
@[simp] theorem writeBit_src (v : Bit) (s : State) : (writeBit v s).src = s.src := rfl
@[simp] theorem writeBit_dst (v : Bit) (s : State) : (writeBit v s).dst = s.dst := rfl
@[simp] theorem writeBit_pending (v : Bit) (s : State) : (writeBit v s).pending = s.pending := rfl
@[simp] theorem writeBit_uop (v : Bit) (s : State) : (writeBit v s).uop = s.uop := rfl
@[simp] theorem writeBit_ret (v : Bit) (s : State) : (writeBit v s).ret = s.ret := rfl
@[simp] theorem writeBit_trace (v : Bit) (s : State) : (writeBit v s).trace = s.trace ++ writeEvents v := by
  simp [writeBit, writeEvents]
@[simp] theorem writeBit_accesses (v : Bit) (s : State) : (writeBit v s).accesses = s.accesses := rfl
@[simp] theorem writeBit_script (v : Bit) (s : State) : (writeBit v s).script = s.script := rfl
@[simp] theorem writeBit_samples (v : Bit) (s : State) : (writeBit v s).samples = s.samples := rfl
@[simp] theorem writeBit_draws (v : Bit) (s : State) : (writeBit v s).draws = s.draws := rfl
@[simp] theorem writeBit_params (v : Bit) (s : State) : (writeBit v s).params = s.params := rfl

/-! ### clockCycle -/

@[simp] theorem clockCycle_pins (s : State) : (clockCycle s).pins = { s.pins with clk := true } := rfl
@[simp] theorem clockCycle_cfg (s : State) : (clockCycle s).cfg = s.cfg := rfl
@[simp] theorem clockCycle_phase (s : State) : (clockCycle s).phase = s.phase := rfl
@[simp] theorem clockCycle_cnt (s : State) : (clockCycle s).cnt = s.cnt := rfl
@[simp] theorem clockCycle_work (s : State) : (clockCycle s).work = s.work := rfl
@[simp] theorem clockCycle_src (s : State) : (clockCycle s).src = s.src := rfl
@[simp] theorem clockCycle_dst (s : State) : (clockCycle s).dst = s.dst := rfl
@[simp] theorem clockCycle_pending (s : State) : (clockCycle s).pending = s.pending := rfl
@[simp] theorem clockCycle_uop (s : State) : (clockCycle s).uop = s.uop := rfl
@[simp] theorem clockCycle_ret (s : State) : (clockCycle s).ret = s.ret := rfl
@[simp] theorem clockCycle_trace (s : State) : (clockCycle s).trace = s.trace ++ [.k0, .k1] := by
  simp [clockCycle]
@[simp] theorem clockCycle_accesses (s : State) : (clockCycle s).accesses = s.accesses := rfl
@[simp] theorem clockCycle_script (s : State) : (clockCycle s).script = s.script := rfl
@[simp] theorem clockCycle_samples (s : State) : (clockCycle s).samples = s.samples := rfl
@[simp] theorem clockCycle_draws (s : State) : (clockCycle s).draws = s.draws := rfl
@[simp] theorem clockCycle_params (s : State) : (clockCycle s).params = s.params := rfl

/-! ### readBit -/

@[simp] theorem readBit_pins (s : State) : ((readBit s).2).pins = { s.pins with clk := true } := rfl
@[simp] theorem readBit_cfg (s : State) : ((readBit s).2).cfg = s.cfg := rfl
@[simp] theorem readBit_phase (s : State) : ((readBit s).2).phase = s.phase := rfl
@[simp] theorem readBit_cnt (s : State) : ((readBit s).2).cnt = s.cnt := rfl
@[simp] theorem readBit_work (s : State) : ((readBit s).2).work = s.work := rfl
@[simp] theorem readBit_src (s : State) : ((readBit s).2).src = s.src := rfl
@[simp] theorem readBit_dst (s : State) : ((readBit s).2).dst = s.dst := rfl
@[simp] theorem readBit_pending (s : State) : ((readBit s).2).pending = s.pending := rfl
@[simp] theorem readBit_uop (s : State) : ((readBit s).2).uop = s.uop := rfl
@[simp] theorem readBit_ret (s : State) : ((readBit s).2).ret = s.ret := rfl
@[simp] theorem readBit_trace (s : State) : ((readBit s).2).trace = s.trace ++ readEvents (nextSample s) := by
  simp [readBit, sampleLine, readEvents, nextSample]
@[simp] theorem readBit_accesses (s : State) : ((readBit s).2).accesses = s.accesses := rfl
@[simp] theorem readBit_script (s : State) : ((readBit s).2).script = s.script.tail := rfl
@[simp] theorem readBit_samples (s : State) : ((readBit s).2).samples = s.samples + 1 := rfl
@[simp] theorem readBit_draws (s : State) : ((readBit s).2).draws = s.draws := rfl
@[simp] theorem readBit_params (s : State) : ((readBit s).2).params = s.params := rfl
/-- The bit `READ_BIT` returns is the next sample. -/
@[simp] theorem readBit_fst (s : State) : (readBit s).1 = nextSample s := by
  simp [readBit, sampleLine, nextSample]

/-! ### repetition -/

@[simp] theorem repeatN_zero (f : State → State) (s : State) : repeatN 0 f s = s := rfl

theorem repeatN_succ (n : Nat) (f : State → State) (s : State) : repeatN (n + 1) f s = repeatN n f (f s) := rfl

theorem repeatN_add (m n : Nat) (f : State → State) (s : State) : repeatN (m + n) f s = repeatN n f (repeatN m f s) := by
  induction m generalizing s with
  | zero => simp
  | succ m ih => rw [Nat.succ_add, repeatN_succ, ih, repeatN_succ]

/-- What one turn keeps, the repetition keeps. -/
theorem repeatN_keeps {P : State → Prop} {f : State → State} (hf : ∀ s, P s → P (f s)) (n : Nat) {s : State} (hs : P s) :
    P (repeatN n f s) := by
  induction n generalizing s with
  | zero => exact hs
  | succ n ih => exact ih (hf s hs)

@[simp] theorem forUp_zero (f : Nat → State → State) (i : Nat) (s : State) : forUp f 0 i s = s := rfl

theorem forUp_succ (f : Nat → State → State) (n i : Nat) (s : State) :
    forUp f (n + 1) i s = forUp f n (i + 1) (f i s) := rfl

@[simp] theorem cycleEvents_zero : cycleEvents 0 = [] := rfl

theorem cycleEvents_succ (n : Nat) : cycleEvents (n + 1) = [.k0, .k1] ++ cycleEvents n := rfl

/-- `repeat n: ClockCycle()` issues `n` clock cycles, leaves the clock high when there was one, and changes nothing else. -/
theorem repeatN_clockCycle (n : Nat) (s : State) :
    repeatN n clockCycle s =
      { s with pins := { s.pins with clk := if n = 0 then s.pins.clk else true }, trace := s.trace ++ cycleEvents n } := by
  induction n generalizing s with
  | zero => simp
  | succ n ih =>
    rw [repeatN_succ, ih, cycleEvents_succ]
    by_cases hn : n = 0 <;> simp [clockCycle, setClk, hn]

/-! ### the tests before an operation -/

theorem whenIdle_next {s t : State} {go : Result} : whenIdle s go = .next t ↔ s.busy = false ∧ go = .next t := by
  unfold whenIdle; split <;> simp_all

theorem refuseIf_next {bad : Bool} {why : Refusal} {go : Result} {t : State} :
    refuseIf bad why go = .next t ↔ bad = false ∧ go = .next t := by
  unfold refuseIf; split <;> simp_all

@[simp] theorem whenIdle_idle {s : State} (h : s.busy = false) (go : Result) : whenIdle s go = go := by simp [whenIdle, h]

@[simp] theorem whenIdle_busy {s : State} (h : s.busy = true) (go : Result) : whenIdle s go = .refused .busy := by
  simp [whenIdle, h]

@[simp] theorem refuseIf_false (why : Refusal) (go : Result) : refuseIf false why go = go := rfl

@[simp] theorem refuseIf_true (why : Refusal) (go : Result) : refuseIf true why go = .refused why := rfl

theorem busy_false_iff {s : State} : s.busy = false ↔ s.phase = .idle := by simp [State.busy]

theorem busy_true_iff {s : State} : s.busy = true ↔ s.phase ≠ .idle := by simp [State.busy]

/-! ### the info byte of XCHG_SEQ -/

/-- The count field is the low `XCHG_COUNT_BITS` bits. -/
theorem clkField_eq (p : Config.Params) (info : BitVec 8) : clkField p info = info.toNat % 2 ^ p.xchgCountBits.val := by
  simp [clkField]

/-- Every width of the field gives a count of 1 to 64. -/
theorem xchgCount_range (p : Config.Params) (info : BitVec 8) : 1 ≤ xchgCount p info ∧ xchgCount p info ≤ 64 := by
  have hw : p.xchgCountBits.val ≤ 6 := by omega
  have hlt : info.toNat % 2 ^ p.xchgCountBits.val < 2 ^ p.xchgCountBits.val := Nat.mod_lt _ (by positivity)
  have hle : 2 ^ p.xchgCountBits.val ≤ 2 ^ 6 := Nat.pow_le_pow_right (by decide) hw
  unfold xchgCount
  rw [clkField_eq]
  split
  · exact ⟨by decide, by decide⟩
  · omega

/-- The operand range of both forms of `XCHG_SEQ` is what their meanings test. -/
theorem infoReserved_eq_false (p : Config.Params) (info : BitVec 8) :
    infoReserved p info = false ↔ (Instr.xchgSeqOut info).legal p = true := by
  simp [infoReserved, Instr.legal]

/-- `info[6]` is reserved whatever the width of the count field. -/
theorem infoReserved_of_bit6 (p : Config.Params) {info : BitVec 8} (h : info.getLsbD 6 = true) :
    infoReserved p info = true := by
  simp only [infoReserved, decide_eq_true_eq, ne_eq]
  intro h0
  have hbit := congrArg (fun v : BitVec 7 => v.getLsbD (6 - p.xchgCountBits.val)) h0
  have hw : p.xchgCountBits.val + (6 - p.xchgCountBits.val) = 6 := by omega
  simp [hw] at hbit
  simp [BitVec.getLsbD, BitVec.getElem_eq_testBit_toNat] at h hbit
  simp [h] at hbit

/-! ### the nine meanings, by inversion -/

theorem execGenSeq_next {c : BitVec 9} {s t : State} :
    execGenSeq c s = .next t ↔ s.busy = false ∧ c.toNat ≤ s.params.genMax ∧ sequenceOut c.toNat s = t := by
  simp [execGenSeq, whenIdle_next, refuseIf_next]

theorem execXchgSeqOut_next {info : BitVec 8} {s t : State} :
    execXchgSeqOut info s = .next t ↔
      s.busy = false ∧ infoReserved s.params info = false ∧ info.getLsbD 7 = false ∧ sequenceOut (xchgCount s.params info) s = t := by
  simp [execXchgSeqOut, whenIdle_next, refuseIf_next]

theorem execXchgSeqIn_next {info : BitVec 8} {s t : State} :
    execXchgSeqIn info s = .next t ↔
      s.busy = false ∧ infoReserved s.params info = false ∧ info.getLsbD 7 = true ∧ sequenceIn (xchgCount s.params info) s = t := by
  simp [execXchgSeqIn, whenIdle_next, refuseIf_next]

theorem execTransferRd_next {req : BitVec 4} {s t : State} :
    execTransferRd req s = .next t ↔
      s.busy = false ∧ s.cfg.valid = true ∧ req.getLsbD 1 = true ∧ transferRead req s = t := by
  simp [execTransferRd, whenIdle_next, refuseIf_next]

theorem execTransferWr_next {req : BitVec 4} {w : Word} {s t : State} :
    execTransferWr req w s = .next t ↔
      s.busy = false ∧ s.cfg.valid = true ∧ req.getLsbD 1 = false ∧ transferWrite req w s = t := by
  simp [execTransferWr, whenIdle_next, refuseIf_next]

theorem execCfgWrite_next {tn idl : BitVec 8} {dp : Bit} {s t : State} :
    execCfgWrite tn idl dp s = .next t ↔
      s.busy = false ∧ (1 ≤ tn.toNat ∧ tn.toNat ≤ s.params.turnMax) ∧ idl.toNat ≤ s.params.idleMax ∧
        { s with cfg := { turnaround := tn.toNat, idle := idl.toNat, dataPhase := dp, valid := true },
                 ret := some .nothing } = t := by
  simp only [execCfgWrite, whenIdle_next, refuseIf_next, Bool.or_eq_false_iff, decide_eq_false_iff_not, Nat.not_lt,
    Host.Outcome.next.injEq, Nat.one_le_iff_ne_zero]

theorem execWriteBit_next {v : Bit} {s t : State} :
    execWriteBit v s = .next t ↔ returned .nothing (writeBit v s) = t := by simp [execWriteBit]

theorem execReadBit_next {s t : State} :
    execReadBit s = .next t ↔ returned (.bit (nextSample s)) (readBit s).2 = t := by simp [execReadBit]

theorem execClockCycle_next {s t : State} :
    execClockCycle s = .next t ↔ returned .nothing (clockCycle s) = t := by simp [execClockCycle]

/-! ### fetching and the step -/

/-- The next word is the issued micro-operation, else the command at the port. -/
theorem fetch_cases {s s' : State} {w : CodeWord} (h : fetch s = some (w, s')) :
    (uopPresent s.uop = true ∧ w = .uop s.uop ∧ s' = { s with uop := 0 }) ∨
    (uopPresent s.uop = false ∧ ∃ c rest, s.pending = c :: rest ∧ w = .cmd c.word ∧ s' = accept c rest s) := by
  unfold fetch at h
  split at h
  · next hu => cases h; exact .inl ⟨hu, rfl, rfl⟩
  · next hu =>
    split at h
    · next c rest hp => cases h; exact .inr ⟨by simpa using hu, c, rest, hp, rfl, rfl⟩
    · cases h

theorem fetch_none_iff {s : State} : fetch s = none ↔ uopPresent s.uop = false ∧ s.pending = [] := by
  unfold fetch
  by_cases hu : uopPresent s.uop = true
  · simp [hu]
  · cases hp : s.pending <;> simp_all

/-- A step runs the word presented, or goes on with the sequencer, or waits. -/
theorem step_next_cases {s t : State} (h : step s = .next t) :
    (∃ w s' i, fetch s = some (w, s') ∧ decode w = .ok i ∧ exec i s' = .next t) ∨
    (fetch s = none ∧ s.busy = true ∧ sequencerStep s = .next t) ∨
    (fetch s = none ∧ s.busy = false ∧ t = s) := by
  unfold step at h
  split at h
  · next w s' hf =>
    split at h
    · next i hd => exact .inl ⟨w, s', i, hf, hd, h⟩
    · cases h
  · next hf =>
    split at h
    · next hb => exact .inr (.inl ⟨hf, hb, h⟩)
    · next hb => cases h; exact .inr (.inr ⟨hf, by simpa using hb, rfl⟩)

/-- A step of the sequencer performs the phase's cycle, counts down, and leaves the phase at 0. -/
theorem sequencerStep_next {s t : State} :
    sequencerStep s = .next t ↔
      s.cnt ≠ 0 ∧
      (if s.cnt = 1 then exitPhase { phaseCycle s with cnt := 0 } else { phaseCycle s with cnt := s.cnt - 1 }) = t := by
  unfold sequencerStep
  by_cases h0 : s.cnt = 0
  · simp [h0]
  · by_cases h1 : s.cnt = 1 <;> simp [h0, h1]

end Sys2Proof.Machine
end

