-- ==== Sys2Proof/Laws/PerInstr.lean ====
section
/-! SUPPORT. Statements made per instruction: each operation's word, as the encoder spells it, is a word of its own row of
spec/opcode_table.json. -/

namespace Sys2Proof.Laws.EncodesToItsRow

/-- The encoded operation matches the mask and pattern of the row of its mnemonic. -/
def Statement (i : Instr) : Prop :=
  i.wf = true → ∃ r ∈ opcodeTable, r.mnemonic = i.mnemonic ∧ r.matchesWord (encode i) = true

theorem genSeq (count : BitVec 9) : Statement (.genSeq count) := fun _ =>
  ⟨⟨"GEN_SEQ", 44, 0xFFFFFFFFE00, 0x10000000000⟩, by simp [opcodeTable], rfl, by
    revert count; decide⟩

theorem xchgSeqOut (info : BitVec 8) : Statement (.xchgSeqOut info) := fun h =>
  ⟨⟨"XCHG_SEQ.OUT", 44, 0xFFFFFFFFFC0, 0x20000000000⟩, by simp [opcodeTable], rfl, by
    revert info; decide⟩

theorem xchgSeqIn (info : BitVec 8) : Statement (.xchgSeqIn info) := fun h =>
  ⟨⟨"XCHG_SEQ.IN", 44, 0xFFFFFFFFFC0, 0x20000000080⟩, by simp [opcodeTable], rfl, by
    revert info; decide⟩

theorem transferRd (req : BitVec 4) : Statement (.transferRd req) := fun h =>
  ⟨⟨"TRANSFER.RD", 44, 0xF00000000F2, 0x30000000002⟩, by simp [opcodeTable], rfl, by
    revert req; decide⟩

/-- The fixed bits of a write's word (R71): the operation code, `arg[7:4]` and the `RnW` bit. -/
theorem transferWr_masked (req : BitVec 4) (wdata : Word) :
    (0x3#4 ++ wdata ++ 0#4 ++ req) &&& 0xF00000000F2#44 = 0x3#4 ++ 0#32 ++ 0#4 ++ (req &&& 2) := by
  rw [show (0xF00000000F2#44 : BitVec 44) = 0xF#4 ++ 0#32 ++ 0xF#4 ++ 0x2#4 from by decide,
    BitVec.and_append, BitVec.and_append, BitVec.and_append]
  simp

theorem transferWr (req : BitVec 4) (wdata : Word) : Statement (.transferWr req wdata) := fun h =>
  ⟨⟨"TRANSFER.WR", 44, 0xF00000000F2, 0x30000000000⟩, by simp [opcodeTable], rfl, by
    have key : ∀ r : BitVec 4, (!r.getLsbD 1) = true → 0x3#4 ++ 0#32 ++ 0#4 ++ (r &&& 2) = 0x30000000000#44 := by decide
    simpa [OpcodeRow.matchesWord, encode] using (transferWr_masked req wdata).trans (key req h)⟩

/-- The fixed bits of a configuration write's word (R71): the operation code and `arg[39:17]`. -/
theorem cfgWrite_masked (turnaround idle : BitVec 8) (dp : Bit) :
    (0x4#4 ++ 0#23 ++ BitVec.ofBool dp ++ idle ++ turnaround) &&& 0xFFFFFFE0000#44 = 0x40000000000#44 := by
  rw [show (0xFFFFFFE0000#44 : BitVec 44) = 0xF#4 ++ 0x7FFFFF#23 ++ 0#1 ++ 0#8 ++ 0#8 from by decide,
    BitVec.and_append, BitVec.and_append, BitVec.and_append, BitVec.and_append]
  simp

theorem cfgWrite (turnaround idle : BitVec 8) (dp : Bit) : Statement (.cfgWrite turnaround idle dp) := fun _ =>
  ⟨⟨"CFG_WRITE", 44, 0xFFFFFFE0000, 0x40000000000⟩, by simp [opcodeTable], rfl, by
    simpa [OpcodeRow.matchesWord, encode] using cfgWrite_masked turnaround idle dp⟩

theorem writeBit (v : Bit) : Statement (.writeBit v) := fun _ =>
  ⟨⟨"WRITE_BIT", 3, 0x6, 0x4⟩, by simp [opcodeTable], rfl, by revert v; decide⟩

theorem readBit : Statement .readBit := fun _ =>
  ⟨⟨"READ_BIT", 3, 0x7, 0x6⟩, by simp [opcodeTable], rfl, by decide⟩

theorem clockCycle : Statement .clockCycle := fun _ =>
  ⟨⟨"CLOCK_CYCLE", 3, 0x7, 0x2⟩, by simp [opcodeTable], rfl, by decide⟩

end Sys2Proof.Laws.EncodesToItsRow
end

