-- ==== Sys2Proof/Laws/Trace.lean ====
section
/-! SUPPORT. The terms of Safety.lean: the samples a run takes, the number of clock cycles, and replaying a trace. -/

namespace Sys2Proof.Machine

/-! ### samples -/

theorem nextSample_eq_sampleAt (s : State) : nextSample s = sampleAt s 0 := by
  unfold nextSample sampleAt
  cases s.script <;> rfl

/-- After one sample the next ones are one place further on. -/
theorem sampleAt_readBit (s : State) (i : Nat) : sampleAt (readBit s).2 i = sampleAt s (i + 1) := by
  simp only [sampleAt, readBit_script, readBit_samples, List.getElem?_tail]
  rw [Nat.add_assoc, Nat.add_comm 1 i]

/-- The samples ahead depend on the script and the number of samples taken only. -/
theorem sampleAt_congr {s t : State} (h : s.script = t.script) (h' : s.samples = t.samples) (i : Nat) :
    sampleAt s i = sampleAt t i := by
  simp [sampleAt, h, h']

/-! ### clock cycles -/

@[simp] theorem cycles_nil : cycles [] = 0 := rfl

@[simp] theorem cycles_append (a b : List PinEvent) : cycles (a ++ b) = cycles a + cycles b := List.count_append

@[simp] theorem cycles_writeEvents (b : Bit) : cycles (writeEvents b) = 1 := rfl

@[simp] theorem cycles_readEvents (b : Bit) : cycles (readEvents b) = 1 := rfl

@[simp] theorem cycles_dirEvents (p : Config.Params) (way : Dir) : cycles (dirEvents p way) = 0 := by
  unfold dirEvents; split <;> rfl

@[simp] theorem cycles_cycleEvents (n : Nat) : cycles (cycleEvents n) = n := by
  induction n with
  | zero => rfl
  | succ n ih => rw [cycleEvents_succ, cycles_append, ih]; show 1 + n = n + 1; omega

/-- A run of bits written takes one clock cycle a bit. -/
@[simp] theorem cycles_writes (bs : List Bit) : cycles (bs.flatMap writeEvents) = bs.length := by
  induction bs with
  | nil => rfl
  | cons b bs ih => simp [ih]; omega

/-- A run of bits sampled takes one clock cycle a bit. -/
@[simp] theorem cycles_reads (bs : List Bit) : cycles (bs.flatMap readEvents) = bs.length := by
  induction bs with
  | nil => rfl
  | cons b bs ih => simp [ih]; omega

/-! ### replaying -/

@[simp] theorem replayPins_nil (p : Pins) : replayPins p [] = p := rfl

theorem replayPins_append (p : Pins) (a b : List PinEvent) :
    replayPins p (a ++ b) = replayPins (replayPins p a) b := by
  induction a generalizing p with
  | nil => rfl
  | cons e a ih => cases e <;> simp [replayPins, ih]

/-- Replaying the events of `WRITE_BIT` gives what it writes. -/
@[simp] theorem replayPins_writeEvents (p : Pins) (b : Bit) :
    replayPins p (writeEvents b) = { p with dioO := b, clk := true } := rfl

@[simp] theorem replayPins_readEvents (p : Pins) (b : Bit) : replayPins p (readEvents b) = { p with clk := true } := rfl

/-- Dropping the events that change no register changes no pin. -/
theorem replayPins_effective (p : Pins) (t : List PinEvent) : replayPins p (effective p t) = replayPins p t := by
  induction t generalizing p with
  | nil => rfl
  | cons e t ih =>
    obtain ⟨clk, dioO, dioDir⟩ := p
    cases e <;> simp only [effective, replayPins] <;> (try split) <;> simp_all [replayPins]

/-! ### single bits -/

/-- `DATA[i] <- b` (and `ACK[i] <- b`) writes bit `i` and no other. -/
theorem setBit_getLsbD {w : Nat} (v : BitVec w) (i j : Nat) (b : Bit) (hi : i < w) :
    (setBit v i b).getLsbD j = if j = i then b else v.getLsbD j := by
  unfold setBit
  rw [BitVec.getLsbD_or, BitVec.getLsbD_and, BitVec.getLsbD_not, BitVec.getLsbD_shiftLeft, BitVec.getLsbD_shiftLeft,
    BitVec.getLsbD_setWidth, BitVec.getLsbD_ofBool, BitVec.getLsbD_one]
  by_cases hj : j < w
  · rcases Nat.lt_trichotomy j i with h | h | h
    · simp [hj, h, Nat.ne_of_lt h]
    · subst h
      simp [hj, show 0 < w by omega]
    · simp [hj, show ¬ j < i by omega, show j - i ≠ 0 by omega, show j ≠ i by omega]
  · simp [BitVec.getLsbD_of_ge _ _ (Nat.le_of_not_lt hj), show j ≠ i by omega, hj]

end Sys2Proof.Machine
end

