-- ==== Sys2Proof/Tests/Slice0.lean ====
section
/-! SUPPORT. Tests: ill-formed terms, words written out from the spec's encodings, one operation at a time on the vectors of
95_test_vectors.md, and for each statement with hypotheses a witness that meets them all. -/

namespace Sys2Proof.Tests

open Sys2Proof.Machine

/-! ## Helpers -/

/-- The reset state with a configuration written and the line scripted. -/
def onLine (turnaround idle : Nat) (dataPhase : Bit) (script : List Bit) : State :=
  { State.reset with cfg := ⟨turnaround, idle, dataPhase, true⟩, script := script }

/-- The reset state with a SRC buffer. -/
def withSrc (bytes : List Byte) : State := { State.reset with src := Memory.ofBytes bytes 0 }

/-- What one operation shows. -/
structure Shown where
  trace : List PinEvent
  pins : Pins
  ret : Option Return
  dst : Memory
  deriving DecidableEq

/-- What one operation shows; none where it does not answer a next state. -/
def shown (i : Instr) (s : State) : Option Shown :=
  match exec i s with
  | .next t => some ⟨t.trace, t.pins, t.ret, t.dst⟩
  | .fault _ => none
  | .refused _ => none

/-- The refusal an operation ends in, if any. -/
def refusal (i : Instr) (s : State) : Option Refusal :=
  match exec i s with
  | .next _ => none
  | .fault _ => none
  | .refused r => some r

/-- Tokens of 95_test_vectors.md section 0: `W<b>` and `r<b>` for each digit of a list, `C` n times. -/
def W (bs : List Nat) : List PinEvent := bs.flatMap fun b => writeEvents (b == 1)
def r (bs : List Nat) : List PinEvent := bs.flatMap fun b => readEvents (b == 1)
def C (n : Nat) : List PinEvent := cycleEvents n
def H : List PinEvent := [.dir .host]
def T : List PinEvent := [.dir .target]
def D (b : Nat) : List PinEvent := [.d (b == 1)]

/-- The lines idle-high and driven. -/
def idleHigh : Pins := ⟨true, true, .host⟩

/-- Scripts: the acknowledgements in time order. -/
def ackOk : List Bit := [true, false, false]
def ackWait : List Bit := [false, true, false]
def ackFault : List Bit := [false, false, true]
def ackBoth : List Bit := [true, true, false]

/-! ## WellFormed: each check refuses an ill-formed term -/

theorem test_wf_out_direction : (Instr.xchgSeqOut 0x83).wf = false := by decide
theorem test_wf_out_reserved : (Instr.xchgSeqOut 0x43).wf = false := by decide
theorem test_wf_in_direction : (Instr.xchgSeqIn 0x03).wf = false := by decide
theorem test_wf_in_reserved : (Instr.xchgSeqIn 0xC3).wf = false := by decide
theorem test_wf_rd_direction : (Instr.transferRd 0x0).wf = false := by decide
theorem test_wf_wr_direction : (Instr.transferWr 0x2 0).wf = false := by decide
theorem test_legal_count : (Instr.genSeq 257).legal Config.Params.default = false := by decide
theorem test_legal_turnaround_zero : (Instr.cfgWrite 0 0 false).legal Config.Params.default = false := by decide
theorem test_legal_turnaround_high : (Instr.cfgWrite 5 0 false).legal Config.Params.default = false := by decide
theorem test_legal_spare_bit :
    (Instr.xchgSeqOut 0x08).legal { Config.Params.default with xchgCountBits := 3 } = false := by decide
theorem test_legal_idle : (Instr.cfgWrite 1 4 false).legal { Config.Params.default with idleMax := 3 } = false := by decide

/-! ## Words (R71, R77, R80; the vectors' command words of 95_test_vectors.md) -/

theorem test_decode_genSeq : decode (.cmd 0x10000000088#44) = .ok (.genSeq 136) := by decide
theorem test_decode_xchgOut_X4 : decode (.cmd 0x2000000003F#44) = .ok (.xchgSeqOut 0x3F) := by decide
theorem test_decode_xchgIn_X11 : decode (.cmd 0x2000000008B#44) = .ok (.xchgSeqIn 0x8B) := by decide
theorem test_decode_transferRd_P3 : decode (.cmd 0x3000000000F#44) = .ok (.transferRd 0xF) := by decide
theorem test_decode_transferWr_WR5 : decode (.cmd 0x3DEADBEEF00#44) = .ok (.transferWr 0x0 0xDEADBEEF) := by decide
theorem test_decode_cfgWrite_CF3 : decode (.cmd 0x40000010002#44) = .ok (.cfgWrite 2 0 true) := by decide
theorem test_decode_writeBit_M3 : decode (.uop 0b100#3) = .ok (.writeBit false) := by decide
theorem test_decode_readBit : decode (.uop 0b110#3) = .ok .readBit := by decide
theorem test_decode_clockCycle : decode (.uop 0b010#3) = .ok .clockCycle := by decide
theorem test_decode_reserved_op_RF3 : decode (.cmd 0x50000000000#44) = .error (.reservedOp 5) := by decide
theorem test_decode_request_bits_RF5 : decode (.cmd 0x30000000012#44) = .error .mustBeZero := by decide
theorem test_decode_info_bit_X16 : decode (.cmd 0x200000000C3#44) = .error .mustBeZero := by decide
theorem test_decode_cfg_bit_CF7 : decode (.cmd 0x40000020001#44) = .error .mustBeZero := by decide
theorem test_decode_unused_uop : decode (.uop 0b111#3) = .error .unusedMicroOp := by decide
theorem test_encode_transferWr_WR1 : encode (.transferWr 0x4 0x50000000) = .cmd 0x35000000004#44 := by decide
theorem test_table_word_uop : decodeTableWord 8 4 = some (.writeBit false) := by decide
theorem test_table_word_cmd : decodeTableWord 48 0x10000000000 = some (.genSeq 0) := by decide

/-! ## Operations on the vectors of 95_test_vectors.md -/

theorem test_writeBit_M1 :
    shown (.writeBit true) { State.reset with pins := ⟨true, false, .host⟩ } =
      some ⟨[.d true, .k0, .k1], idleHigh, some .nothing, []⟩ := by decide

theorem test_readBit_M5 :
    shown .readBit { State.reset with pins := ⟨true, false, .host⟩, script := [true] } =
      some ⟨[.k0, .s true, .k1], ⟨true, false, .host⟩, some (.bit true), []⟩ := by decide

theorem test_clockCycle_M6 :
    shown .clockCycle { State.reset with pins := ⟨true, false, .host⟩ } =
      some ⟨[.k0, .k1], ⟨true, false, .host⟩, some .nothing, []⟩ := by decide

theorem test_genSeq_G5 :
    shown (.genSeq 12) (withSrc [0xA5, 0x0F]) =
      some ⟨H ++ W [1,0,1,0,0,1,0,1,1,1,1,1], idleHigh, some .nothing, []⟩ := by decide +kernel

theorem test_genSeq_G1 : shown (.genSeq 0) (withSrc []) = some ⟨H, idleHigh, some .nothing, []⟩ := by decide

theorem test_xchgOut_X1 :
    shown (.xchgSeqOut 0x03) (withSrc [0x05]) = some ⟨H ++ W [1,0,1], idleHigh, some .nothing, []⟩ := by decide

theorem test_xchgOut_X5 :
    shown (.xchgSeqOut 0x01) (withSrc [0xFE]) = some ⟨H ++ W [0], ⟨true, false, .host⟩, some .nothing, []⟩ := by decide

theorem test_xchgIn_X11 :
    shown (.xchgSeqIn 0x8B) { State.reset with
        script := [true, false, true, false, false, true, false, true, true, true, false] } =
      some ⟨T ++ r [1,0,1,0,0,1,0,1,1,1,0], ⟨true, true, .target⟩, some (.captured 2), [(0, 0xA5), (1, 0x03)]⟩ := by
  decide +kernel

theorem test_xchgIn_X7 :
    shown (.xchgSeqIn 0x83) { State.reset with script := [true, true, false] } =
      some ⟨T ++ r [1,1,0], ⟨true, true, .target⟩, some (.captured 1), [(0, 0x03)]⟩ := by decide +kernel

/-- S6. -/
theorem test_transferRd_S6 :
    shown (.transferRd 0x2) (onLine 1 0 false (ackOk ++ bitsOf 0x12345678#32 ++ [true])) =
      some ⟨H ++ W [1,0,1,0,0,1,0,1] ++ D 1 ++ T ++ C 1 ++ r [1,0,0] ++
        r [0,0,0,1,1,1,1,0,0,1,1,0,1,0,1,0,0,0,1,0,1,1,0,0,0,1,0,0,1,0,0,0] ++ r [1] ++ C 1 ++ H ++ D 1 ++ D 1,
        idleHigh, some (.transfer .ok (some 0x12345678)), []⟩ := by decide +kernel

/-- RD7: a parity error does not suppress the idle cycles. -/
theorem test_transferRd_RD7 :
    (shown (.transferRd 0x2) (onLine 1 2 false (ackOk ++ bitsOf 0x2BA01477#32 ++ [true]))).map
        (fun x => (cycles x.trace, x.ret)) = some (48, some (.transfer .parityError none)) := by decide +kernel

/-- S9. -/
theorem test_transferWr_S9 :
    shown (.transferWr 0x4 0x50000000) (onLine 1 8 false ackOk) =
      some ⟨H ++ W [1,0,0,1,0,1,0,1] ++ D 1 ++ T ++ C 1 ++ r [1,0,0] ++ C 1 ++ H ++
        W [0,0,0,0,0,0,0,0,0,0,0,0,0,0,0,0,0,0,0,0,0,0,0,0,0,0,0,0,1,0,1,0] ++ W [0] ++ D 0 ++ C 8 ++ D 1,
        idleHigh, some (.transfer .ok none), []⟩ := by decide +kernel

/-- WF6. -/
theorem test_transferWr_WF6 :
    shown (.transferWr 0x0 0xDEADBEEF) (onLine 2 0 true ackFault) =
      some ⟨H ++ W [1,0,0,0,0,0,0,1] ++ D 1 ++ T ++ C 2 ++ r [0,0,1] ++ C 2 ++ H ++ D 0 ++ C 33 ++ D 1,
        idleHigh, some (.transfer .fault none), []⟩ := by decide +kernel

/-- CF3. -/
theorem test_cfgWrite_CF3 :
    (match exec (.cfgWrite 2 0 true) State.reset with
      | .next t => some (t.cfg, t.trace)
      | _ => none) = some (⟨2, 0, true, true⟩, []) := by decide

/-- G8, X6, CF5, CF6, RF1, RF4. -/
theorem test_refusals :
    [refusal (.genSeq 257) State.reset, refusal (.xchgSeqOut 0x43) State.reset, refusal (.cfgWrite 0 0 false) State.reset,
     refusal (.cfgWrite 5 0 false) State.reset, refusal (.transferRd 0x2) State.reset,
     refusal (.genSeq 8) { State.reset with phase := .ack }] =
    [some .countOutOfRange, some .reservedBit, some .turnaroundOutOfRange, some .turnaroundOutOfRange,
     some .notConfigured, some .busy] := by decide

/-- R39: a capture fills the buffer passed beside it, and no earlier one. -/
theorem test_step_fills_passed_buffer :
    (match step { State.reset with dst := [(5, 0xFF)], script := [true, true, false]
                                   pending := [⟨0x20000000083, none, some [(0, 0xEE), (1, 0x77)]⟩] } with
      | .next t => some t.dst
      | _ => none) = some [(0, 0x03), (1, 0x77)] := by decide +kernel

/-- The sequencer's last step of `P_BACKOFF` (R152): one cycle, then `>H`, `D1` and the return. -/
theorem test_sequencer_backoff_exit :
    (match sequencerStep { onLine 1 0 false [] with
        phase := .backoff, cnt := 1, pins := ⟨true, true, .target⟩
        work := { State.reset.work with res := .protocolError 0b011 } } with
      | .next t => some (t.trace, t.phase, t.ret)
      | _ => none) =
    some (C 1 ++ H ++ D 1, .idle, some (.transfer (.protocolError 0b011) none)) := by decide

/-! ## Witnesses: for each statement with hypotheses, a state and operands that meet them all -/

/-- The command port holding one word. -/
def presenting (w : BitVec 44) (s : State) : State := { s with pending := [⟨w, none, none⟩] }

/-- Parameters with a count field of 3 bits. -/
def narrow : Config.Params := { Config.Params.default with xchgCountBits := 3 }

/-- A read in its data phase, 5 of 32 bits left, on a written configuration: a state between two steps of the sequencer. -/
def midRead : State :=
  { onLine 1 0 false [] with
    phase := .rdata, cnt := 5, pins := ⟨true, true, .target⟩, work := { State.reset.work with req := 0x2 } }

/-- The reset state with a whole read scripted. -/
def readAhead : State := onLine 4 255 true (ackOk ++ bitsOf 0x80000001#32 ++ [false])

theorem witness_StepRunsThePresentedWord :
    (∃ (s : State) (c : Command) (rest : List Command) (i : Instr),
      uopPresent s.uop = false ∧ s.pending = c :: rest ∧ decodeCmd c.word = .ok i) ∧
    (∃ (s : State) (i : Instr), uopPresent s.uop = true ∧ decodeUop s.uop = .ok i) :=
  ⟨⟨presenting 0x10000000001 State.reset, ⟨0x10000000001, none, none⟩, [], .genSeq 1, by decide⟩,
   ⟨{ State.reset with uop := 0b110 }, .readBit, by decide⟩⟩

theorem witness_PlacedWordRunsNext :
    (∃ i, decodeTableWord 8 6 = some i) ∧ (∃ i, decodeTableWord 48 0x3000000000F = some i) :=
  ⟨⟨.readBit, by decide⟩, ⟨.transferRd 0xF, by decide⟩⟩

theorem witness_StepWithoutWord :
    (∃ s : State, uopPresent s.uop = false ∧ s.pending = [] ∧ s.busy = false) ∧
    (∃ s : State, uopPresent s.uop = false ∧ s.pending = [] ∧ s.busy = true) :=
  ⟨⟨State.reset, by decide⟩, ⟨midRead, by decide⟩⟩

theorem witness_DecodeOfEncode : ∃ i : Instr, i.wf = true := ⟨.transferWr 0xD 0xFFFFFFFF, by decide⟩

theorem witness_EncodeOfDecode :
    (∃ w r, decode (.cmd w) = .ok (.transferRd r)) ∧ (∃ c i, decode c = .ok i ∧ i = .writeBit true) :=
  ⟨⟨0x3DEADBEEF02, 0x2, by decide⟩, ⟨.uop 0b101, .writeBit true, by decide⟩⟩

theorem witness_IllegalCommandsAreRefused :
    (∃ w : BitVec 44, w >>> 40 = 0) ∧ (∃ w : BitVec 44, 5 ≤ (w >>> 40).toNat) ∧
    (∃ w : BitVec 44, w >>> 40 = 1 ∧ w &&& 0xFFFFFFFE00 ≠ 0) ∧ (∃ w : BitVec 44, w >>> 40 = 2 ∧ w &&& 0xFFFFFFFF40 ≠ 0) ∧
    (∃ w : BitVec 44, w >>> 40 = 3 ∧ w &&& 0xF0 ≠ 0) ∧ (∃ w : BitVec 44, w >>> 40 = 4 ∧ w &&& 0xFFFFFE0000 ≠ 0) ∧
    (∃ (s : State) (c : Command) (rest : List Command) (e : DecodeError),
      uopPresent s.uop = false ∧ s.pending = c :: rest ∧ decodeCmd c.word = .error e) ∧
    (∃ (count : BitVec 9) (s : State), s.busy = false ∧ s.params.genMax < count.toNat) ∧
    (∃ (turnaround : BitVec 8) (s : State), s.busy = false ∧ turnaround = 0) ∧
    (∃ (turnaround : BitVec 8) (s : State), s.busy = false ∧ s.params.turnMax < turnaround.toNat) ∧
    (∃ (turnaround idle : BitVec 8) (s : State), s.busy = false ∧ 1 ≤ turnaround.toNat ∧
      turnaround.toNat ≤ s.params.turnMax ∧ s.params.idleMax < idle.toNat) ∧
    (∃ s : State, s.busy = false ∧ s.cfg.valid = false) ∧
    (∃ (i : Instr) (s : State), i.isMicroOp = false ∧ s.busy = true) :=
  ⟨⟨0x00000000000, by decide⟩, ⟨0x50000000000, by decide⟩, ⟨0x10000000200, by decide⟩, ⟨0x20000000040, by decide⟩,
   ⟨0x30000000010, by decide⟩, ⟨0x40000020001, by decide⟩,
   ⟨presenting 0 State.reset, ⟨0, none, none⟩, [], .reservedOp 0, by decide⟩,
   ⟨257, State.reset, by decide⟩, ⟨0, State.reset, by decide⟩, ⟨5, State.reset, by decide⟩,
   ⟨1, 4, { State.reset with params := { Config.Params.default with idleMax := 3 } }, by decide⟩,
   ⟨State.reset, by decide⟩, ⟨.genSeq 8, midRead, by decide⟩⟩

theorem witness_LegalOperationsRun :
    ∃ (i : Instr) (s : State), i.wf = true ∧ i.legal s.params = true ∧ (i.isMicroOp = false → s.busy = false) ∧
      (i.mnemonic = "TRANSFER.RD" ∨ i.mnemonic = "TRANSFER.WR" → s.cfg.valid = true) :=
  ⟨.transferRd 0xF, readAhead, by decide⟩

theorem witness_ClockAlternatesAndRestsHigh : ∃ (i : Instr) (s t : State), s.pins.clk = true ∧ exec i s = .next t :=
  ⟨.xchgSeqIn 0x83, State.reset, sequenceIn 3 State.reset, by decide, rfl⟩

theorem witness_GenSeqEffect :
    ∃ (count : BitVec 9) (s : State) (bytes : Nat → Byte), s.busy = false ∧ count.toNat ≤ s.params.genMax ∧
      ∀ j, j < ceil8 count.toNat → s.src.read j = some (bytes j) :=
  ⟨256, withSrc (List.replicate 32 0x9E), fun _ => 0x9E, by decide, by decide, by decide⟩

theorem witness_XchgSeqOutEffect :
    (∃ (info : BitVec 8) (s : State), s.busy = false ∧ info.getLsbD 7 = false ∧ info.getLsbD 6 = true) ∧
    (∃ (info : BitVec 8) (s : State), s.busy = false ∧ info.getLsbD 7 = false ∧ info.getLsbD 6 = false ∧
      (Instr.xchgSeqOut info).legal s.params = false) ∧
    (∃ (info : BitVec 8) (s : State) (bytes : Nat → Byte), s.busy = false ∧ info.getLsbD 7 = false ∧
      (Instr.xchgSeqOut info).legal s.params = true ∧ ∀ j, j < ceil8 (xchgCount s.params info) → s.src.read j = some (bytes j)) :=
  ⟨⟨0x43, State.reset, by decide⟩, ⟨0x08, { State.reset with params := narrow }, by decide⟩,
   ⟨0x00, withSrc (List.replicate 8 0x9E), fun _ => 0x9E, by decide, by decide, by decide, by decide⟩⟩

theorem witness_XchgSeqOutIsGenSeqOfItsCount :
    ∃ (info : BitVec 8) (s : State), (Instr.xchgSeqOut info).wf = true ∧
      (Instr.xchgSeqOut info).legal s.params = true ∧ xchgCount s.params info ≤ s.params.genMax :=
  ⟨0x00, State.reset, by decide⟩

theorem witness_CountFieldDecoding :
    (∃ (p : Config.Params) (info : BitVec 8), info.toNat % 2 ^ p.xchgCountBits.val = 0) ∧
    (∃ (p : Config.Params) (info : BitVec 8), info.toNat % 2 ^ p.xchgCountBits.val ≠ 0) ∧
    (∃ (p : Config.Params) (info : BitVec 8), p.xchgCountBits = 6 ∧ info &&& 0x3F = 0) ∧
    (∃ (p : Config.Params) (info : BitVec 8), p.xchgCountBits = 6 ∧ info &&& 0x3F ≠ 0) ∧
    (∃ n, 1 ≤ n ∧ n ≤ 64 ∧ n = 1) ∧ (∃ n, 1 ≤ n ∧ n ≤ 64 ∧ n = 64) :=
  ⟨⟨narrow, 0x38, by decide⟩, ⟨narrow, 0x07, by decide⟩, ⟨Config.Params.default, 0x80, by decide⟩,
   ⟨Config.Params.default, 0x3F, by decide⟩, ⟨1, by decide⟩, ⟨64, by decide⟩⟩

theorem witness_OutputReadsEachByteOnce :
    (∃ (i : Instr) (n : Nat) (s : State), s.busy = false ∧ ∃ c, i = .genSeq c ∧ c.toNat = n ∧ n ≤ s.params.genMax) ∧
    (∃ (i : Instr) (n : Nat) (s : State), s.busy = false ∧ ∃ info, i = .xchgSeqOut info ∧ i.wf = true ∧
      i.legal s.params = true ∧ xchgCount s.params info = n) :=
  ⟨⟨.genSeq 0, 0, State.reset, by decide, 0, rfl, by decide, by decide⟩,
   ⟨.xchgSeqOut 0, 64, State.reset, by decide, 0, rfl, by decide, by decide, by decide⟩⟩

theorem witness_OutputReadsEachByteOnce_highBits :
    ∃ (c : BitVec 9) (s : State) (src' : Memory), s.busy = false ∧ c.toNat ≤ s.params.genMax ∧
      ∀ j, j < ceil8 c.toNat → ∃ a b, s.src.read j = some a ∧ src'.read j = some b ∧
        ∀ m, m < 8 → 8 * j + m < c.toNat → a.getLsbD m = b.getLsbD m :=
  ⟨1, withSrc [0xFE], [(0, 0x00)], by decide, by decide, fun j hj => by
    obtain rfl : j = 0 := by simp [ceil8] at hj; omega
    exact ⟨0xFE, 0x00, by decide, by decide, by decide⟩⟩

theorem witness_XchgSeqInEffect :
    (∃ (info : BitVec 8) (s : State), s.busy = false ∧ info.getLsbD 7 = true ∧ info.getLsbD 6 = true) ∧
    (∃ (info : BitVec 8) (s : State), s.busy = false ∧ info.getLsbD 7 = true ∧ info.getLsbD 6 = false ∧
      (Instr.xchgSeqIn info).legal s.params = false) ∧
    (∃ (info : BitVec 8) (s : State), s.busy = false ∧ info.getLsbD 7 = true ∧
      (Instr.xchgSeqIn info).legal s.params = true) :=
  ⟨⟨0xC3, State.reset, by decide⟩, ⟨0x88, { State.reset with params := narrow }, by decide⟩,
   ⟨0x80, State.reset, by decide⟩⟩

theorem witness_CaptureWritesEachByteOnce :
    (∃ (info : BitVec 8) (s : State), s.busy = false ∧ (Instr.xchgSeqIn info).wf = true ∧
      (Instr.xchgSeqIn info).legal s.params = true) ∧
    (∃ (i : Instr) (s t : State), exec i s = .next t ∧ i.isMicroOp = false) :=
  ⟨⟨0x80, State.reset, by decide⟩, ⟨.xchgSeqIn 0x83, State.reset, sequenceIn 3 State.reset, rfl, by decide⟩⟩

theorem witness_PartialByteIsRightAligned :
    ∃ (info : BitVec 8) (s t : State), exec (.xchgSeqIn info) s = .next t ∧ xchgCount s.params info % 8 ≠ 0 :=
  ⟨0x83, State.reset, sequenceIn 3 State.reset, rfl, by decide⟩

theorem witness_LoopbackRoundTrip :
    ∃ (i : Instr) (info : BitVec 8) (n : Nat) (s : State) (bytes : Nat → Byte),
      s.busy = false ∧ 1 ≤ n ∧ n ≤ 64 ∧ (∃ c, i = .genSeq c ∧ c.toNat = n ∧ n ≤ s.params.genMax) ∧
      (Instr.xchgSeqIn info).wf = true ∧ (Instr.xchgSeqIn info).legal s.params = true ∧ xchgCount s.params info = n ∧
      ∀ j, j < ceil8 n → s.src.read j = some (bytes j) :=
  ⟨.genSeq 12, 0x8C, 12, withSrc [0xA5, 0xA5], fun _ => 0xA5, by decide, by decide, by decide,
   ⟨12, rfl, by decide, by decide⟩, by decide, by decide, by decide, by decide⟩

theorem witness_LoopbackRoundTrip_xchg :
    ∃ (i : Instr) (info : BitVec 8) (n : Nat) (s : State) (bytes : Nat → Byte),
      s.busy = false ∧ 1 ≤ n ∧ n ≤ 64 ∧ (∃ o, i = .xchgSeqOut o ∧ i.wf = true ∧ i.legal s.params = true ∧
        xchgCount s.params o = n) ∧
      (Instr.xchgSeqIn info).wf = true ∧ (Instr.xchgSeqIn info).legal s.params = true ∧ xchgCount s.params info = n ∧
      ∀ j, j < ceil8 n → s.src.read j = some (bytes j) :=
  ⟨.xchgSeqOut 0x00, 0x80, 64, withSrc (List.replicate 8 0xA5), fun _ => 0xA5, by decide, by decide, by decide,
   ⟨0x00, rfl, by decide, by decide, by decide⟩, by decide, by decide, by decide, by decide⟩

theorem witness_MixedViewsAgree :
    ∃ (i : Instr) (w : Word) (s u : State), s.busy = false ∧
      (i = .genSeq 32 ∧ 32 ≤ s.params.genMax ∨ i = .xchgSeqOut 32 ∧ i.legal s.params = true) ∧
      (∀ j, j < 4 → s.src.read j = some (w.extractLsb' (8 * j) 8)) ∧ u.work.data = w :=
  ⟨.genSeq 32, 0x12345678, withSrc [0x78, 0x56, 0x34, 0x12],
   { State.reset with work := { State.reset.work with data := 0x12345678 } }, by decide⟩

theorem witness_MixedViewsAgree_xchg :
    ∃ (i : Instr) (w : Word) (s u : State), s.busy = false ∧ (i = .xchgSeqOut 32 ∧ i.legal s.params = true) ∧
      (∀ j, j < 4 → s.src.read j = some (w.extractLsb' (8 * j) 8)) ∧ u.work.data = w :=
  ⟨.xchgSeqOut 32, 0x12345678, withSrc [0x78, 0x56, 0x34, 0x12],
   { State.reset with work := { State.reset.work with data := 0x12345678 } }, by decide⟩

theorem witness_SequencesReadNoConfiguration :
    ∃ (i : Instr) (s t : State), (∃ o, i = .xchgSeqIn o) ∧ exec i s = .next t ∧ s.busy = false ∧ i.wf = true ∧
      i.legal s.params = true :=
  ⟨.xchgSeqIn 0x83, State.reset, sequenceIn 3 State.reset, ⟨0x83, rfl⟩, rfl, by decide, by decide, by decide⟩

theorem witness_SequencesReadNoConfiguration_output :
    (∃ (i : Instr) (s t : State), (∃ n, i = .genSeq n) ∧ exec i s = .next t ∧ s.busy = false ∧ i.wf = true ∧
      i.legal s.params = true) ∧
    (∃ (i : Instr) (s t : State), (∃ o, i = .xchgSeqOut o) ∧ exec i s = .next t ∧ s.busy = false ∧ i.wf = true ∧
      i.legal s.params = true) :=
  ⟨⟨.genSeq 12, withSrc [0xA5, 0x0F], sequenceOut 12 (withSrc [0xA5, 0x0F]), ⟨12, rfl⟩, rfl, by decide, by decide, by decide⟩,
   ⟨.xchgSeqOut 0x03, withSrc [0x05], sequenceOut 3 (withSrc [0x05]), ⟨0x03, rfl⟩, rfl, by decide, by decide, by decide⟩⟩

theorem witness_FirstTurnaround : ∃ s : State, 1 ≤ s.cfg.turnaround := ⟨readAhead, by decide⟩

theorem witness_AckSamplesThreeBits :
    ∃ (i : Instr) (s t : State), i = .transferRd 0x2 ∧ exec i s = .next t :=
  ⟨.transferRd 0x2, readAhead, transferRead 0x2 readAhead, rfl, rfl⟩

theorem witness_AckClassification :
    (∃ a : BitVec 3, a ≠ 0b001 ∧ a ≠ 0b010 ∧ a ≠ 0b100) ∧
    (∃ (s : State) (level : Bit), ∀ i, i < 3 → sampleAt s i = level) :=
  ⟨⟨0b011, by decide⟩, ⟨onLine 1 0 false [true, true, true], true, by decide⟩⟩

theorem witness_ReadDataPhase : ∃ (s : State) (w : Word), ∀ i, i < 32 → w.getLsbD i = sampleAt s i :=
  ⟨onLine 1 0 false (bitsOf 0x12345678#32), 0x12345678, by decide⟩

theorem witness_ReadParityCheck : ∃ s : State, s.work.par = parity s.work.data := ⟨State.reset, by decide⟩

theorem witness_TransferReadOk :
    ∃ (req : BitVec 4) (w : Word) (s : State), s.busy = false ∧ s.cfg.valid = true ∧ req.getLsbD 1 = true ∧
      ackAhead s = 0b001 ∧ IsWordAhead s w ∧ ones (bitsOf w ++ [sampleAt s 35]) % 2 = 0 :=
  ⟨0x2, 0x80000001, readAhead, by decide, by decide, by decide, by decide, by unfold IsWordAhead; decide, by decide⟩

theorem witness_TransferReadOk_parityError :
    ∃ (req : BitVec 4) (w : Word) (s : State), s.busy = false ∧ s.cfg.valid = true ∧ req.getLsbD 1 = true ∧
      ackAhead s = 0b001 ∧ IsWordAhead s w ∧ ones (bitsOf w ++ [sampleAt s 35]) % 2 ≠ 0 :=
  ⟨0xE, 0x80000001, onLine 1 0 false (ackOk ++ bitsOf 0x80000001#32 ++ [true]), by decide, by decide, by decide,
   by decide, by unfold IsWordAhead; decide, by decide⟩

theorem witness_TransferWriteOk :
    ∃ (req : BitVec 4) (s : State), s.busy = false ∧ s.cfg.valid = true ∧ req.getLsbD 1 = false ∧ ackAhead s = 0b001 :=
  ⟨0x4, onLine 1 8 false ackOk, by decide⟩

theorem witness_TransferReadWaitFault :
    (∃ (req : BitVec 4) (s : State), s.busy = false ∧ s.cfg.valid = true ∧ req.getLsbD 1 = true ∧ ackAhead s = 0b010) ∧
    (∃ (req : BitVec 4) (s : State), s.busy = false ∧ s.cfg.valid = true ∧ req.getLsbD 1 = true ∧ ackAhead s = 0b100) :=
  ⟨⟨0x2, onLine 1 0 true ackWait, by decide⟩, ⟨0x6, onLine 2 3 false ackFault, by decide⟩⟩

theorem witness_TransferWriteWaitFault :
    (∃ (req : BitVec 4) (s : State), s.busy = false ∧ s.cfg.valid = true ∧ req.getLsbD 1 = false ∧ ackAhead s = 0b010) ∧
    (∃ (req : BitVec 4) (s : State), s.busy = false ∧ s.cfg.valid = true ∧ req.getLsbD 1 = false ∧ ackAhead s = 0b100) :=
  ⟨⟨0x5, onLine 1 0 true ackWait, by decide⟩, ⟨0x0, onLine 2 0 true ackFault, by decide⟩⟩

theorem witness_TransferProtocolError :
    (∃ (i : Instr) (req : BitVec 4) (s : State), i = .transferRd req ∧ i.wf = true ∧ s.busy = false ∧
      s.cfg.valid = true ∧ ackAhead s ≠ 0b001 ∧ ackAhead s ≠ 0b010 ∧ ackAhead s ≠ 0b100) ∧
    (∃ (i : Instr) (req : BitVec 4) (s : State), (∃ wdata, i = .transferWr req wdata) ∧ i.wf = true ∧ s.busy = false ∧
      s.cfg.valid = true ∧ ackAhead s ≠ 0b001 ∧ ackAhead s ≠ 0b010 ∧ ackAhead s ≠ 0b100) :=
  ⟨⟨.transferRd 0x2, 0x2, onLine 1 0 false ackBoth, by decide⟩,
   ⟨.transferWr 0x5 0xA5A5A5A5, 0x5, onLine 1 5 true ackBoth, ⟨0xA5A5A5A5, rfl⟩, by decide, by decide, by decide,
    by decide, by decide, by decide⟩⟩

theorem witness_FrameLengths : ∃ (i : Instr) (s t : State), exec i s = .next t :=
  ⟨.transferRd 0x2, readAhead, transferRead 0x2 readAhead, rfl⟩

theorem witness_FrameLengthsAreBounded : ∃ (i : Instr) (s t : State), s.cfg.legal s.params ∧ exec i s = .next t :=
  ⟨.transferRd 0x2, readAhead, transferRead 0x2 readAhead, fun _ => by decide, rfl⟩

theorem witness_WhoDrivesEachCycle :
    ∃ (req : BitVec 4) (wdata : Word) (i : Instr) (s t : State), s.params.hasDir = true ∧
      (i = .transferRd req ∨ i = .transferWr req wdata) ∧ exec i s = .next t :=
  ⟨0x2, 0, .transferRd 0x2, readAhead, transferRead 0x2 readAhead, rfl, .inl rfl, rfl⟩

theorem witness_TransferLeavesNoRecord :
    ∃ (i : Instr) (s t : State), ((∃ req, i = .transferRd req) ∨ ∃ req w, i = .transferWr req w) ∧ exec i s = .next t :=
  ⟨.transferRd 0x2, readAhead, transferRead 0x2 readAhead, .inl ⟨0x2, rfl⟩, rfl⟩

theorem witness_UnacknowledgedWordIsNotSent : ∃ s : State, ackAhead s ≠ 0b001 := ⟨onLine 1 0 false ackWait, by decide⟩

theorem witness_ResultCodes :
    ∃ (i : Instr) (s t : State) (c : ResultClass) (d : Option Word),
      ((∃ req, i = .transferRd req) ∨ ∃ req w, i = .transferWr req w) ∧ exec i s = .next t ∧ t.ret = some (.transfer c d) :=
  ⟨.transferRd 0x2, onLine 1 0 false ackWait, transferRead 0x2 (onLine 1 0 false ackWait), .wait, none,
   .inl ⟨0x2, rfl⟩, rfl, by decide +kernel⟩

theorem witness_CfgWriteEffect :
    ∃ (turnaround idle : BitVec 8) (s : State), s.busy = false ∧ 1 ≤ turnaround.toNat ∧
      turnaround.toNat ≤ s.params.turnMax ∧ idle.toNat ≤ s.params.idleMax :=
  ⟨4, 255, State.reset, by decide⟩

theorem witness_OnlyCfgWriteChangesConfiguration : ∃ s t : State, step s = .next t ∧ t.cfg ≠ s.cfg :=
  ⟨presenting 0x4000001FF04 State.reset, _, rfl, by decide⟩

theorem witness_OnlyCapturesWriteBuffers :
    (∃ s t : State, step s = .next t ∧ t.src ≠ s.src) ∧ (∃ s t : State, step s = .next t ∧ t.dst ≠ s.dst) ∧
    (∃ s t : State, step s = .next t ∧ t.dst ≠ s.dst ∧ ∃ c rest, s.pending = c :: rest ∧ c.dst = some t.dst) :=
  ⟨⟨{ State.reset with pending := [⟨0x10000000000, some [(0, 0x9E)], none⟩] }, _, rfl, by decide⟩,
   ⟨presenting 0x20000000081 { State.reset with script := [true] }, _, rfl, by decide⟩,
   ⟨{ State.reset with pending := [⟨0x10000000000, none, some [(0, 0x9E)]⟩] }, _, rfl, by decide, _, _, rfl, rfl⟩⟩

theorem witness_RecordsOnlyGrow : ∃ s t : State, step s = .next t :=
  ⟨presenting 0x20000000081 State.reset, _, rfl⟩

theorem witness_PinsFollowTheTrace : ∃ (i : Instr) (s t : State), exec i s = .next t :=
  ⟨.xchgSeqIn 0x83, State.reset, sequenceIn 3 State.reset, rfl⟩

theorem witness_DirectionRegisterIsInvisible :
    ∃ (i : Instr) (s t : State), exec i { s with params := { s.params with hasDir := true } } = .next t :=
  ⟨.xchgSeqIn 0x83, State.reset, _, rfl⟩

theorem witness_SequencerRunsTheOperation :
    ∃ (i : Instr) (s t : State), i.isMicroOp = false ∧ i.mnemonic ≠ "CFG_WRITE" ∧
      (s.cfg.valid = true → 1 ≤ s.cfg.turnaround) ∧ exec i s = .next t :=
  ⟨.transferRd 0x2, readAhead, transferRead 0x2 readAhead, by decide, by decide, by decide, rfl⟩

theorem witness_SequencerStepIsOneMicroOperation : ∃ s : State, s.busy = true ∧ 0 < s.cnt := ⟨midRead, by decide⟩

/-- A state in the middle of a read meets the invariant, with an operation in progress. -/
theorem midRead_inv : Inv midRead where
  srcWf := rfl
  dstWf := rfl
  pendingWf := by simp [midRead, onLine, State.reset]
  cfgLegal := fun _ => by decide
  clkHigh := rfl
  noStrayUop := fun _ => by decide
  cntPos := fun _ => by decide
  transferCfg := fun _ => by decide
  seqOutCnt := fun h => by cases h
  seqInCnt := fun h => by cases h
  kRange := fun h => by rcases h with h | h <;> cases h
  lineDir := fun _ way h => by cases h; rfl
  releasedHigh := fun _ => rfl
  idleLow := fun h => by cases h
  dummyLevel := fun h => by cases h
  rnwPhase := fun b h => by cases h; rfl
  dummyPhase := fun h => by rcases h with h | h <;> cases h

theorem witness_StepKeepsInvariant : ∃ s t : State, Inv s ∧ s.busy = true ∧ step s = .next t :=
  ⟨midRead, _, midRead_inv, by decide, rfl⟩

theorem witness_CountStaysWithinBound : ∃ s : State, Inv s ∧ s.busy = true := ⟨midRead, midRead_inv, by decide⟩

theorem witness_NothingFaults : ∃ s : State, Inv s := ⟨midRead, midRead_inv⟩

theorem witness_OperationInProgressCompletes : ∃ s : State, Inv s ∧ s.busy = true := ⟨midRead, midRead_inv, by decide⟩

end Sys2Proof.Tests
end

section
/-! PROOFS. Parity as a count of ones (00_scope.md R10). -/

namespace Sys2Proof.Machine

/-- The exclusive-or of the low `n` bits is the parity of the number of ones among them. -/
theorem parityLow_eq_ones_mod_two {w : Nat} (v : BitVec w) (n : Nat) :
    parityLow v n = decide (ones ((List.range n).map v.getLsbD) % 2 = 1) := by
  induction n with
  | zero => rfl
  | succ n ih =>
    have hcount : ones ((List.range (n + 1)).map v.getLsbD) =
        ones ((List.range n).map v.getLsbD) + (v.getLsbD n).toNat := by
      cases hb : v.getLsbD n <;> simp [ones, List.range_succ, hb]
    rw [parityLow, ih, hcount, Bool.eq_iff_iff]
    cases v.getLsbD n with
    | false => simp
    | true => simp; omega

/-- R10 at every width. -/
theorem parity_eq_ones_mod_two {w : Nat} (v : BitVec w) : parity v = decide (ones (bitsOf v) % 2 = 1) :=
  parityLow_eq_ones_mod_two v w

/-- Settles O34: the fact holds at every width, by induction on the number of bits counted. -/
theorem parityCountsOnes : Obligations.ParityCountsOnes :=
  ⟨parity_eq_ones_mod_two, parity_eq_ones_mod_two⟩

end Sys2Proof.Machine
end

section
/-! PROOFS. Simulations of the operations. Every operation is written with a dozen primitives and branches on a few fields. A relation
between two states that agrees on those fields and is kept by the primitives is therefore kept by `exec`: an operation that one state
runs the other runs too, and the results are related again. -/

namespace Sys2Proof.Machine

/-- A relation between two states in which every operation takes the same branches (the `_eq` fields) and which every primitive
keeps (the `_rel` fields). Of the parameters only `HAS_DIR` may differ: no meaning but `setDir` reads it. -/
structure OpSimulation (R : State → State → Prop) : Prop where
  phase_eq : ∀ {s u}, R s u → u.phase = s.phase
  cfg_eq : ∀ {s u}, R s u → u.cfg = s.cfg
  work_eq : ∀ {s u}, R s u → u.work = s.work
  params_eq : ∀ {s u}, R s u → ∃ b, u.params = { s.params with hasDir := b }
  nextSample_eq : ∀ {s u}, R s u → nextSample u = nextSample s
  srcByte_eq : ∀ {s u} k, R s u → srcByte k u = srcByte k s
  mapWork_rel : ∀ {s u} (f : Work → Work), R s u → R { s with work := f s.work } { u with work := f u.work }
  setPhase_rel : ∀ {s u} p, R s u → R (setPhase p s) (setPhase p u)
  setDir_rel : ∀ {s u} way, R s u → R (setDir way s) (setDir way u)
  setDio_rel : ∀ {s u} b, R s u → R (setDio b s) (setDio b u)
  writeBit_rel : ∀ {s u} b, R s u → R (writeBit b s) (writeBit b u)
  readBit_rel : ∀ {s u}, R s u → R (readBit s).2 (readBit u).2
  clockCycle_rel : ∀ {s u}, R s u → R (clockCycle s) (clockCycle u)
  memReadSrc_rel : ∀ {s u} k, R s u → R (memReadSrc k s).2 (memReadSrc k u).2
  memWriteDst_rel : ∀ {s u} k v, R s u → R (memWriteDst k v s) (memWriteDst k v u)
  finish_rel : ∀ {s u} r, R s u → R (finish r s) (finish r u)
  returned_rel : ∀ {s u} r, R s u → R (returned r s) (returned r u)
  setCfg_rel : ∀ {s u} (c : Cfg), R s u → R { s with cfg := c } { u with cfg := c }

/-- What relates two states turn by turn relates them after the repetition. -/
theorem repeatN_rel {R : State → State → Prop} {f : State → State} (hf : ∀ {s u}, R s u → R (f s) (f u)) (n : Nat)
    {s u : State} (h : R s u) : R (repeatN n f s) (repeatN n f u) := by
  induction n generalizing s u with
  | zero => exact h
  | succ n ih => exact ih (hf h)

theorem forUp_rel {R : State → State → Prop} {f : Nat → State → State} (hf : ∀ {s u} i, R s u → R (f i s) (f i u))
    (n i : Nat) {s u : State} (h : R s u) : R (forUp f n i s) (forUp f n i u) := by
  induction n generalizing i s u with
  | zero => exact h
  | succ n ih => exact ih (i + 1) (hf i h)

namespace OpSimulation

variable {R : State → State → Prop} (hR : OpSimulation R) {s u : State} (h : R s u)
include hR h

/-! ### what an operation branches on -/

theorem busy_eq : u.busy = s.busy := by simp [State.busy, hR.phase_eq h]

theorem rnw_eq : u.rnw = s.rnw := by simp [State.rnw, hR.work_eq h]

theorem rdata_eq : u.rdata = s.rdata := by simp [State.rdata, hR.rnw_eq h, hR.work_eq h]

theorem readBit_fst_eq : (readBit u).1 = (readBit s).1 := by simp [hR.nextSample_eq h]

theorem infoReserved_eq (info : BitVec 8) : infoReserved u.params info = infoReserved s.params info := by
  obtain ⟨b, hp⟩ := hR.params_eq h
  rw [hp]; rfl

theorem xchgCount_eq (info : BitVec 8) : xchgCount u.params info = xchgCount s.params info := by
  obtain ⟨b, hp⟩ := hR.params_eq h
  rw [hp]; rfl

/-! ### the sequence transceiver -/

/-- A bit written from the working registers. -/
theorem writeWorkBit_rel (f : Work → Bit) : R (writeBit (f s.work) s) (writeBit (f u.work) u) := by
  rw [hR.work_eq h]; exact hR.writeBit_rel _ h

theorem beginSeq_rel (p : Phase) (way : Dir) (n : Nat) : R (beginSeq p way n s) (beginSeq p way n u) :=
  hR.mapWork_rel (fun w => { w with nbits := n, bidx := 0, k := 0 }) (hR.setDir_rel way (hR.setPhase_rel p h))

theorem loadByte_rel : R (loadByte s) (loadByte u) := by
  unfold loadByte
  rw [hR.work_eq h]
  split
  · have hb : (memReadSrc s.work.bidx u).1 = (memReadSrc s.work.bidx s).1 := hR.srcByte_eq _ h
    simp only [hb]
    exact hR.mapWork_rel (fun w => { w with byte := (memReadSrc s.work.bidx s).1, bidx := w.bidx + 1, k := 8 })
      (hR.memReadSrc_rel _ h)
  · exact h

theorem outBit_rel : R (outBit s) (outBit u) :=
  hR.mapWork_rel (fun w => { w with byte := w.byte >>> 1, k := w.k - 1, nbits := w.nbits - 1 })
    (hR.writeWorkBit_rel (hR.loadByte_rel h) (·.byte.getLsbD 0))

theorem clearByte_rel : R (clearByte s) (clearByte u) := by
  unfold clearByte
  rw [hR.work_eq h]
  split
  · exact hR.work_eq h ▸ hR.mapWork_rel (fun w => { w with byte := 0, k := 8 }) h
  · exact h

theorem captureBit_rel : R (captureBit s) (captureBit u) := by
  simp only [captureBit, hR.readBit_fst_eq h]
  exact hR.mapWork_rel (fun w => { w with byte := shiftIn w.byte (readBit s).1, k := w.k - 1, nbits := w.nbits - 1 })
    (hR.readBit_rel h)

theorem storeByte_rel : R (storeByte s) (storeByte u) := by
  unfold storeByte
  rw [hR.work_eq h]
  split
  · have hshift := hR.mapWork_rel (fun w => { w with byte := w.byte >>> w.k }) h
    rw [hR.work_eq h] at hshift
    exact hR.mapWork_rel (fun w => { w with bidx := w.bidx + 1 }) (hR.memWriteDst_rel _ _ hshift)
  · exact h

theorem inBit_rel : R (inBit s) (inBit u) := hR.storeByte_rel (hR.captureBit_rel (hR.clearByte_rel h))

theorem sequenceOut_rel (n : Nat) : R (sequenceOut n s) (sequenceOut n u) :=
  hR.finish_rel .nothing (repeatN_rel hR.outBit_rel n (hR.beginSeq_rel h .seqOut .host n))

theorem sequenceIn_rel (n : Nat) : R (sequenceIn n s) (sequenceIn n u) := by
  have hbits := repeatN_rel hR.inBit_rel n (hR.beginSeq_rel h .seqIn .target n)
  simp only [sequenceIn, hR.work_eq hbits]
  exact hR.finish_rel _ hbits

/-! ### the transfer engine -/

theorem setPar_rel (b : Bit) : R (setPar b s) (setPar b u) := hR.mapWork_rel (fun w => { w with par := b }) h

theorem foldPar_rel (b : Bit) : R (foldPar b s) (foldPar b u) := hR.mapWork_rel (fun w => { w with par := w.par ^^ b }) h

theorem setRes_rel (c : ResultClass) : R (setRes c s) (setRes c u) := hR.mapWork_rel (fun w => { w with res := c }) h

theorem setReq_rel (req : BitVec 4) : R (setReq req s) (setReq req u) := hR.mapWork_rel (fun w => { w with req := req }) h

theorem setData_rel (d : Word) : R (setData d s) (setData d u) := hR.mapWork_rel (fun w => { w with data := d }) h

/-- A bit written from the working registers and folded into the parity. -/
theorem writeBitPar_rel (f : Work → Bit) : R (writeBitPar (f s.work) s) (writeBitPar (f u.work) u) := by
  rw [hR.work_eq h]; exact hR.foldPar_rel (hR.writeBit_rel _ h) _

theorem turnaround_rel : R (repeatN s.cfg.turnaround clockCycle s) (repeatN u.cfg.turnaround clockCycle u) := by
  rw [hR.cfg_eq h]; exact repeatN_rel hR.clockCycle_rel _ h

theorem sendRequest_rel : R (sendRequest s) (sendRequest u) := by
  have hstart := hR.writeBit_rel true (hR.setPar_rel (hR.setDir_rel .host (hR.setPhase_rel .req h)) false)
  have hreq := hR.writeBitPar_rel (hR.writeBitPar_rel (hR.writeBitPar_rel (hR.writeBitPar_rel hstart
    (·.req.getLsbD 0)) (·.req.getLsbD 1)) (·.req.getLsbD 2)) (·.req.getLsbD 3)
  exact hR.writeBit_rel true (hR.writeBit_rel false (hR.writeWorkBit_rel hreq (·.par)))

theorem turnaround1_rel : R (turnaround1 s) (turnaround1 u) :=
  hR.turnaround_rel (hR.setPhase_rel .trn1 (hR.setDir_rel .target (hR.setDio_rel true h)))

theorem readAckBit_rel (i : Nat) : R (readAckBit i s) (readAckBit i u) := by
  simp only [readAckBit, hR.readBit_fst_eq h]
  exact hR.mapWork_rel (fun w => { w with ack := setBit w.ack i (readBit s).1 }) (hR.readBit_rel h)

theorem sampleAck_rel : R (sampleAck s) (sampleAck u) :=
  hR.readAckBit_rel (hR.readAckBit_rel (hR.readAckBit_rel (hR.setPhase_rel .ack h) 0) 1) 2

theorem requestAndAck_rel : R (requestAndAck s) (requestAndAck u) :=
  hR.sampleAck_rel (hR.turnaround1_rel (hR.sendRequest_rel h))

theorem readDataBit_rel (i : Nat) : R (readDataBit i s) (readDataBit i u) := by
  simp only [readDataBit, hR.readBit_fst_eq h]
  exact hR.foldPar_rel (hR.mapWork_rel (fun w => { w with data := setBit w.data i (readBit s).1 }) (hR.readBit_rel h)) _

theorem readData_rel : R (readData s) (readData u) :=
  forUp_rel (R := R) (fun i h => hR.readDataBit_rel h i) _ _ (hR.setPar_rel (hR.setData_rel (hR.setPhase_rel .rdata h) 0) false)

theorem readParBit_rel : R (readParBit s) (readParBit u) := by
  have hread := hR.readBit_rel h
  simp only [readParBit, hR.readBit_fst_eq h, hR.work_eq hread]
  split
  · exact hR.setRes_rel hread .ok
  · exact hR.setRes_rel hread .parityError

theorem checkParity_rel : R (checkParity s) (checkParity u) := hR.readParBit_rel (hR.setPhase_rel .rpar h)

theorem turnaround2Read_rel : R (turnaround2Read s) (turnaround2Read u) :=
  hR.setDio_rel true (hR.setDir_rel .host (hR.turnaround_rel (hR.setPhase_rel .trn2Rd h)))

theorem turnaround2Write_rel : R (turnaround2Write s) (turnaround2Write u) :=
  hR.setDir_rel .host (hR.turnaround_rel (hR.setPhase_rel .trn2Wr h))

theorem writeData_rel : R (writeData s) (writeData u) :=
  forUp_rel (R := R) (fun i h => hR.writeBitPar_rel h (·.data.getLsbD i)) _ _ (hR.setPar_rel (hR.setPhase_rel .wdata h) false)

theorem writeParity_rel : R (writeParity s) (writeParity u) :=
  hR.setRes_rel (hR.writeWorkBit_rel (hR.setPhase_rel .wpar h) (·.par)) .ok

theorem idleCycles_rel : R (idleCycles s) (idleCycles u) := by
  simp only [idleCycles, setDio_cfg, setPhase_cfg, hR.cfg_eq h]
  split
  · exact repeatN_rel hR.clockCycle_rel _ (hR.setDio_rel false (hR.setPhase_rel .idlecyc h))
  · exact h

theorem finishOk_rel : R (finishOk s) (finishOk u) := by
  have hdio := hR.setDio_rel true h
  simp only [finishOk, hR.rdata_eq hdio, hR.work_eq hdio]
  exact hR.finish_rel _ hdio

theorem finishError_rel : R (finishError s) (finishError u) := by
  have hdio := hR.setDio_rel true h
  simp only [finishError, hR.work_eq hdio]
  exact hR.finish_rel _ hdio

theorem resFromAck_rel : R (resFromAck s) (resFromAck u) :=
  hR.mapWork_rel (fun w => { w with res := classOf w.ack }) h

theorem dummyRead_rel : R (dummyRead s) (dummyRead u) := by
  simp only [dummyRead, hR.cfg_eq h, hR.rnw_eq h]
  split
  · exact repeatN_rel hR.clockCycle_rel _ (hR.setPhase_rel .dummyRd h)
  · exact h

theorem turnaround2Error_rel : R (turnaround2Error s) (turnaround2Error u) :=
  hR.setDir_rel .host (hR.turnaround_rel (hR.setPhase_rel .trn2Err h))

theorem dummyWrite_rel : R (dummyWrite s) (dummyWrite u) := by
  obtain ⟨b, hp⟩ := hR.params_eq h
  simp only [dummyWrite, hR.cfg_eq h, hR.rnw_eq h, setPhase_params, hp]
  split
  · exact repeatN_rel hR.clockCycle_rel _ (hR.setDio_rel _ (hR.setPhase_rel .dummyWr h))
  · exact h

theorem recoverWaitFault_rel : R (recoverWaitFault s) (recoverWaitFault u) :=
  hR.finishError_rel (hR.dummyWrite_rel (hR.turnaround2Error_rel (hR.dummyRead_rel (hR.resFromAck_rel h))))

theorem recoverProtocolError_rel : R (recoverProtocolError s) (recoverProtocolError u) := by
  have hback := hR.setPhase_rel .backoff (hR.resFromAck_rel h)
  simp only [recoverProtocolError, hR.cfg_eq hback]
  exact hR.finishError_rel (hR.setDir_rel .host (repeatN_rel hR.clockCycle_rel _ hback))

theorem okRead_rel : R (okRead s) (okRead u) :=
  hR.finishOk_rel (hR.idleCycles_rel (hR.turnaround2Read_rel (hR.checkParity_rel (hR.readData_rel h))))

theorem okWrite_rel : R (okWrite s) (okWrite u) :=
  hR.finishOk_rel (hR.idleCycles_rel (hR.writeParity_rel (hR.writeData_rel (hR.turnaround2Write_rel h))))

theorem branchOnAck_rel {f : State → State} (hf : ∀ {s u}, R s u → R (f s) (f u)) :
    R (branchOnAck f s) (branchOnAck f u) := by
  unfold branchOnAck
  rw [hR.work_eq h]
  cases classOf s.work.ack with
  | ok => exact hf h
  | wait | fault => exact hR.recoverWaitFault_rel h
  | parityError | protocolError => exact hR.recoverProtocolError_rel h

theorem transferRead_rel (req : BitVec 4) : R (transferRead req s) (transferRead req u) :=
  hR.branchOnAck_rel (hR.requestAndAck_rel (hR.setReq_rel h req)) hR.okRead_rel

theorem transferWrite_rel (req : BitVec 4) (w : Word) : R (transferWrite req w s) (transferWrite req w u) :=
  hR.branchOnAck_rel (hR.requestAndAck_rel (hR.setData_rel (hR.setReq_rel h req) w)) hR.okWrite_rel

/-! ### every operation -/

/-- An operation that the first state runs the second runs too, to a related state. -/
theorem exec_rel {i : Instr} {t : State} (he : exec i s = .next t) : ∃ v, exec i u = .next v ∧ R t v := by
  have hbusy := hR.busy_eq h
  have hcfg := hR.cfg_eq h
  obtain ⟨b, hparams⟩ := hR.params_eq h
  cases i with
  | genSeq count =>
    obtain ⟨hidle, hcount, rfl⟩ := execGenSeq_next.mp he
    exact ⟨_, execGenSeq_next.mpr ⟨hbusy ▸ hidle, hparams ▸ hcount, rfl⟩, hR.sequenceOut_rel h _⟩
  | xchgSeqOut info =>
    obtain ⟨hidle, hres, hdir, rfl⟩ := execXchgSeqOut_next.mp he
    exact ⟨_, execXchgSeqOut_next.mpr ⟨hbusy ▸ hidle, hR.infoReserved_eq h info ▸ hres, hdir, rfl⟩,
      hR.xchgCount_eq h info ▸ hR.sequenceOut_rel h _⟩
  | xchgSeqIn info =>
    obtain ⟨hidle, hres, hdir, rfl⟩ := execXchgSeqIn_next.mp he
    exact ⟨_, execXchgSeqIn_next.mpr ⟨hbusy ▸ hidle, hR.infoReserved_eq h info ▸ hres, hdir, rfl⟩,
      hR.xchgCount_eq h info ▸ hR.sequenceIn_rel h _⟩
  | transferRd req =>
    obtain ⟨hidle, hvalid, hrnw, rfl⟩ := execTransferRd_next.mp he
    exact ⟨_, execTransferRd_next.mpr ⟨hbusy ▸ hidle, hcfg ▸ hvalid, hrnw, rfl⟩, hR.transferRead_rel h req⟩
  | transferWr req w =>
    obtain ⟨hidle, hvalid, hrnw, rfl⟩ := execTransferWr_next.mp he
    exact ⟨_, execTransferWr_next.mpr ⟨hbusy ▸ hidle, hcfg ▸ hvalid, hrnw, rfl⟩, hR.transferWrite_rel h req w⟩
  | cfgWrite turnaround idle dataPhase =>
    obtain ⟨hidle, hturn, hidl, rfl⟩ := execCfgWrite_next.mp he
    exact ⟨_, execCfgWrite_next.mpr ⟨hbusy ▸ hidle, hparams ▸ hturn, hparams ▸ hidl, rfl⟩,
      hR.returned_rel .nothing (hR.setCfg_rel ⟨turnaround.toNat, idle.toNat, dataPhase, true⟩ h)⟩
  | writeBit v =>
    obtain rfl := execWriteBit_next.mp he
    exact ⟨_, rfl, hR.returned_rel .nothing (hR.writeBit_rel v h)⟩
  | readBit =>
    obtain rfl := execReadBit_next.mp he
    exact ⟨_, execReadBit_next.mpr rfl, hR.nextSample_eq h ▸ hR.returned_rel _ (hR.readBit_rel h)⟩
  | clockCycle =>
    obtain rfl := execClockCycle_next.mp he
    exact ⟨_, rfl, hR.returned_rel .nothing (hR.clockCycle_rel h)⟩

end OpSimulation

end Sys2Proof.Machine
end

section
/-! PROOFS. The pin registers are written by pin events only (00_scope.md R12). -/

namespace Sys2Proof.Machine

/-- The events since `s₀` make of the pins of `s₀` the pins of `t`. -/
def PinsFollow (s₀ t : State) : Prop := ∃ evs, t.trace = s₀.trace ++ evs ∧ replayPins s₀.pins evs = t.pins

theorem PinsFollow.refl (s : State) : PinsFollow s s := ⟨[], by simp⟩

/-- A state with more events, whose pins are what these make of the pins before, still follows. -/
theorem PinsFollow.append {s₀ t t' : State} (h : PinsFollow s₀ t) {new : List PinEvent} (ht : t'.trace = t.trace ++ new)
    (hp : replayPins t.pins new = t'.pins) : PinsFollow s₀ t' := by
  obtain ⟨evs, htrace, hpins⟩ := h
  exact ⟨evs ++ new, by simp [ht, htrace], by rw [replayPins_append, hpins, hp]⟩

/-- A direction event writes `DIO_DIR`; without the register there is neither (R23). -/
theorem replayPins_dirEvents (s : State) (way : Dir) :
    replayPins s.pins (dirEvents s.params way) = { s.pins with dioDir := dirAfter s way } := by
  unfold dirEvents dirAfter
  split <;> rfl

/-- Following the trace is kept by every primitive, so the identity on the states that do is a simulation. -/
theorem pinsFollow_opSimulation (s₀ : State) : OpSimulation fun t u => u = t ∧ PinsFollow s₀ t where
  phase_eq := by rintro _ _ ⟨rfl, -⟩; rfl
  cfg_eq := by rintro _ _ ⟨rfl, -⟩; rfl
  work_eq := by rintro _ _ ⟨rfl, -⟩; rfl
  params_eq := by rintro _ _ ⟨rfl, -⟩; exact ⟨_, rfl⟩
  nextSample_eq := by rintro _ _ ⟨rfl, -⟩; rfl
  srcByte_eq := by rintro _ _ _ ⟨rfl, -⟩; rfl
  mapWork_rel := by rintro _ _ _ ⟨rfl, h⟩; exact ⟨rfl, h⟩
  setPhase_rel := by rintro _ _ _ ⟨rfl, h⟩; exact ⟨rfl, h⟩
  setDir_rel := by
    rintro _ _ way ⟨rfl, h⟩
    exact ⟨rfl, h.append (setDir_trace way _) ((replayPins_dirEvents _ way).trans (setDir_pins way _).symm)⟩
  setDio_rel := by rintro _ _ b ⟨rfl, h⟩; exact ⟨rfl, h.append (setDio_trace b _) rfl⟩
  writeBit_rel := by rintro _ _ b ⟨rfl, h⟩; exact ⟨rfl, h.append (writeBit_trace b _) rfl⟩
  readBit_rel := by rintro _ _ ⟨rfl, h⟩; exact ⟨rfl, h.append (readBit_trace _) rfl⟩
  clockCycle_rel := by rintro _ _ ⟨rfl, h⟩; exact ⟨rfl, h.append (clockCycle_trace _) rfl⟩
  memReadSrc_rel := by rintro _ _ _ ⟨rfl, h⟩; exact ⟨rfl, h⟩
  memWriteDst_rel := by rintro _ _ _ _ ⟨rfl, h⟩; exact ⟨rfl, h⟩
  finish_rel := by rintro _ _ _ ⟨rfl, h⟩; exact ⟨rfl, h⟩
  returned_rel := by rintro _ _ _ ⟨rfl, h⟩; exact ⟨rfl, h⟩
  setCfg_rel := by rintro _ _ _ ⟨rfl, h⟩; exact ⟨rfl, h⟩

/-- Settles O50: every primitive writes the pins as its own events do; events without effect drop out by
`replayPins_effective`. -/
theorem pinsFollowTheTrace : Obligations.PinsFollowTheTrace := by
  intro i s t he
  obtain ⟨_, -, -, evs, htrace, hpins⟩ := (pinsFollow_opSimulation s).exec_rel ⟨rfl, .refl s⟩ he
  exact ⟨evs, htrace, hpins, by rw [replayPins_effective, hpins]⟩

end Sys2Proof.Machine
end

section
/-! PROOFS. The direction register is invisible (92_eei_decisions.md D3). -/

namespace Sys2Proof.Machine

/-- The events that are not `>H` or `>T`. -/
def dropDirEvents (evs : List PinEvent) : List PinEvent := evs.filter fun e => e ≠ .dir .host ∧ e ≠ .dir .target

@[simp] theorem dropDirEvents_nil : dropDirEvents [] = [] := rfl

@[simp] theorem dropDirEvents_append (a b : List PinEvent) :
    dropDirEvents (a ++ b) = dropDirEvents a ++ dropDirEvents b := List.filter_append ..

@[simp] theorem dropDirEvents_cons_k0 (evs : List PinEvent) : dropDirEvents (.k0 :: evs) = .k0 :: dropDirEvents evs := rfl

@[simp] theorem dropDirEvents_cons_k1 (evs : List PinEvent) : dropDirEvents (.k1 :: evs) = .k1 :: dropDirEvents evs := rfl

@[simp] theorem dropDirEvents_cons_d (b : Bit) (evs : List PinEvent) :
    dropDirEvents (.d b :: evs) = .d b :: dropDirEvents evs := rfl

@[simp] theorem dropDirEvents_cons_s (b : Bit) (evs : List PinEvent) :
    dropDirEvents (.s b :: evs) = .s b :: dropDirEvents evs := rfl

@[simp] theorem dropDirEvents_dirEvents (p : Config.Params) (way : Dir) : dropDirEvents (dirEvents p way) = [] := by
  unfold dirEvents
  cases way <;> split <;> rfl

/-- `t` as a machine without the direction register has it after the events `evs` from `s₀` on: no direction event, `DIO_DIR` as it
was in `s₀`, and buffer accesses of its own, since each counts the pin events before it. -/
def withoutDir (s₀ : State) (evs : List PinEvent) (acc : List BufAccess) (t : State) : State :=
  { t with params := { t.params with hasDir := false }
           pins := { t.pins with dioDir := s₀.pins.dioDir }
           trace := s₀.trace ++ dropDirEvents evs
           accesses := acc }

/-- `u` is `t` without the direction register, both started at `s₀`. -/
def DirHidden (s₀ t u : State) : Prop := ∃ evs acc, t.trace = s₀.trace ++ evs ∧ u = withoutDir s₀ evs acc t

/-- Both machines go on, the one with the register adding the events `new`, to states that still differ in the register only. -/
theorem DirHidden.append {s₀ t t' u' : State} {evs : List PinEvent} (ht : t.trace = s₀.trace ++ evs) (new : List PinEvent)
    (ht' : t'.trace = t.trace ++ new) (acc : List BufAccess) (hu' : u' = withoutDir s₀ (evs ++ new) acc t') :
    DirHidden s₀ t' u' :=
  ⟨evs ++ new, acc, by simp [ht', ht], hu'⟩

/-- Without the register `setDir` does nothing; with it, nothing but what `withoutDir` hides. -/
theorem setDir_withoutDir (s₀ : State) (evs : List PinEvent) (acc : List BufAccess) (way : Dir) (t : State) :
    setDir way (withoutDir s₀ evs acc t) = withoutDir s₀ (evs ++ dirEvents t.params way) acc (setDir way t) := by
  cases hd : t.params.hasDir <;> simp [setDir, withoutDir, hd]

/-- The primitives read nothing that `withoutDir` hides and write it through direction events only. -/
theorem dirHidden_opSimulation (s₀ : State) : OpSimulation (DirHidden s₀) where
  phase_eq := by rintro _ _ ⟨_, _, -, rfl⟩; rfl
  cfg_eq := by rintro _ _ ⟨_, _, -, rfl⟩; rfl
  work_eq := by rintro _ _ ⟨_, _, -, rfl⟩; rfl
  params_eq := by rintro _ _ ⟨_, _, -, rfl⟩; exact ⟨false, rfl⟩
  nextSample_eq := by rintro _ _ ⟨_, _, -, rfl⟩; rfl
  srcByte_eq := by rintro _ _ _ ⟨_, _, -, rfl⟩; rfl
  mapWork_rel := by rintro _ _ _ ⟨evs, acc, ht, rfl⟩; exact ⟨evs, acc, ht, rfl⟩
  setPhase_rel := by rintro _ _ _ ⟨evs, acc, ht, rfl⟩; exact ⟨evs, acc, ht, rfl⟩
  setDir_rel := by
    rintro _ _ way ⟨evs, acc, ht, rfl⟩
    exact .append ht _ (setDir_trace way _) acc (setDir_withoutDir ..)
  setDio_rel := by
    rintro _ _ b ⟨evs, acc, ht, rfl⟩
    exact .append ht _ (setDio_trace b _) acc (by simp [withoutDir, setDio])
  writeBit_rel := by
    rintro _ _ b ⟨evs, acc, ht, rfl⟩
    exact .append ht _ (writeBit_trace b _) acc (by simp [withoutDir, writeBit, setDio, setClk, writeEvents])
  readBit_rel := by
    rintro _ _ ⟨evs, acc, ht, rfl⟩
    exact .append ht _ (readBit_trace _) acc (by simp [withoutDir, readBit, sampleLine, setClk, readEvents, nextSample])
  clockCycle_rel := by
    rintro _ _ ⟨evs, acc, ht, rfl⟩
    exact .append ht _ (clockCycle_trace _) acc (by simp [withoutDir, clockCycle, setClk])
  memReadSrc_rel := by rintro _ _ _ ⟨evs, acc, ht, rfl⟩; exact ⟨evs, _, ht, rfl⟩
  memWriteDst_rel := by rintro _ _ _ _ ⟨evs, acc, ht, rfl⟩; exact ⟨evs, _, ht, rfl⟩
  finish_rel := by rintro _ _ _ ⟨evs, acc, ht, rfl⟩; exact ⟨evs, acc, ht, rfl⟩
  returned_rel := by rintro _ _ _ ⟨evs, acc, ht, rfl⟩; exact ⟨evs, acc, ht, rfl⟩
  setCfg_rel := by rintro _ _ _ ⟨evs, acc, ht, rfl⟩; exact ⟨evs, acc, ht, rfl⟩

/-- A state with the register and the same state without it, before any event. -/
theorem dirHidden_start (s : State) :
    DirHidden s { s with params := { s.params with hasDir := true } } { s with params := { s.params with hasDir := false } } :=
  ⟨[], s.accesses, by simp, by simp [withoutDir]⟩

/-- Settles O51: `DirHidden` is a simulation that holds at the start, and gives every clause at the end. -/
theorem directionRegisterIsInvisible : Obligations.DirectionRegisterIsInvisible := by
  intro i s t he
  obtain ⟨_, hu, evs, acc, htrace, rfl⟩ := (dirHidden_opSimulation s).exec_rel (dirHidden_start s) he
  exact ⟨_, evs, hu, htrace, rfl, rfl, rfl, rfl, rfl, rfl, rfl, rfl, rfl⟩

end Sys2Proof.Machine
end

section
/-! PROOFS. Properties of one state that the model's functions keep. A property kept by the primitives is kept by every procedure
written with them, so a frame fact is proved of the primitives only. Three layers: what a clock cycle of a phase is written with,
what a procedure that writes no direction is written with, and what a whole operation is written with. The accesses to the bit
buffers and the configuration write stand apart, since each occurs in few operations. -/

namespace Sys2Proof.Machine

theorem forUp_keeps {P : State → Prop} {f : Nat → State → State} (hf : ∀ {s} i, P s → P (f i s)) (n i : Nat) {s : State}
    (hs : P s) : P (forUp f n i s) :=
  forUp_rel (R := fun t _ => P t) (f := f) (fun i h => hf i h) n i (u := s) hs

/-- What each of the three branches after the acknowledgement gives holds after the branch taken. -/
theorem branchOnAck_cases {Q : State → Prop} {f : State → State} {s : State} (hok : Q (f s)) (hwait : Q (recoverWaitFault s))
    (hproto : Q (recoverProtocolError s)) : Q (branchOnAck f s) := by
  unfold branchOnAck
  cases classOf s.work.ack with
  | ok => exact hok
  | wait | fault => exact hwait
  | parityError | protocolError => exact hproto

/-- The phase after the acknowledgement is one of the five of R152. -/
theorem afterAck_cases {Q : State → Prop} {s : State} (hread : s.rnw = true → Q (enterPhase .rdata s))
    (hwrite : s.rnw = false → Q (enterPhase .trn2Wr s))
    (hdummy : s.cfg.dataPhase = true → s.rnw = true → Q (enterPhase .dummyRd s))
    (herr : Q (enterPhase .trn2Err s)) (hback : Q (enterPhase .backoff s)) : Q (afterAck s) := by
  unfold afterAck
  cases classOf s.work.ack with
  | ok =>
    dsimp only
    split
    · next hr => exact hread hr
    · next hr => exact hwrite (by simpa using hr)
  | wait | fault =>
    dsimp only
    split
    · next hd => exact hdummy hd.1 hd.2
    · exact herr
  | parityError | protocolError => exact hback

/-- Kept by the three micro-operations and by every update of the working registers but `REQ`. -/
structure KeptByCycles (P : State → Prop) : Prop where
  mapWork_kept : ∀ {s} (f : Work → Work), (∀ w, (f w).req = w.req) → P s → P { s with work := f s.work }
  writeBit_kept : ∀ {s} b, P s → P (writeBit b s)
  readBit_kept : ∀ {s}, P s → P (readBit s).2
  clockCycle_kept : ∀ {s}, P s → P (clockCycle s)

namespace KeptByCycles

variable {P : State → Prop} (hP : KeptByCycles P) {s : State}
include hP

theorem setPar_kept (b : Bit) (h : P s) : P (setPar b s) := hP.mapWork_kept (fun w => { w with par := b }) (fun _ => rfl) h

theorem foldPar_kept (b : Bit) (h : P s) : P (foldPar b s) :=
  hP.mapWork_kept (fun w => { w with par := w.par ^^ b }) (fun _ => rfl) h

theorem setRes_kept (c : ResultClass) (h : P s) : P (setRes c s) :=
  hP.mapWork_kept (fun w => { w with res := c }) (fun _ => rfl) h

theorem setData_kept (d : Word) (h : P s) : P (setData d s) := hP.mapWork_kept (fun w => { w with data := d }) (fun _ => rfl) h

theorem resFromAck_kept (h : P s) : P (resFromAck s) := hP.setRes_kept _ h

theorem clockCycles_kept (n : Nat) (h : P s) : P (repeatN n clockCycle s) := repeatN_keeps (P := P) (fun _ => hP.clockCycle_kept) n h

theorem writeBitPar_kept (b : Bit) (h : P s) : P (writeBitPar b s) := hP.foldPar_kept b (hP.writeBit_kept b h)

theorem requestBit_kept (h : P s) : P (requestBit s) := by
  simp only [requestBit]
  split
  · exact hP.writeBitPar_kept _ h
  · exact hP.writeBit_kept _ h

theorem readAckBit_kept (i : Nat) (h : P s) : P (readAckBit i s) :=
  hP.mapWork_kept (fun w => { w with ack := setBit w.ack i (readBit s).1 }) (fun _ => rfl) (hP.readBit_kept h)

theorem readDataBit_kept (i : Nat) (h : P s) : P (readDataBit i s) :=
  hP.foldPar_kept _ (hP.mapWork_kept (fun w => { w with data := setBit w.data i (readBit s).1 }) (fun _ => rfl)
    (hP.readBit_kept h))

theorem readParBit_kept (h : P s) : P (readParBit s) := by
  simp only [readParBit]
  split
  · exact hP.setRes_kept _ (hP.readBit_kept h)
  · exact hP.setRes_kept _ (hP.readBit_kept h)

theorem writeDataBit_kept (i : Nat) (h : P s) : P (writeDataBit i s) := hP.writeBitPar_kept _ h

/-- A bit sent from SRC keeps what a read of SRC keeps too. -/
theorem outBit_kept (hread : ∀ {s} k, P s → P (memReadSrc k s).2) (h : P s) : P (outBit s) := by
  have hload : P (loadByte s) := by
    unfold loadByte
    split
    · exact hP.mapWork_kept (fun w => { w with byte := (memReadSrc s.work.bidx s).1, bidx := w.bidx + 1, k := 8 })
        (fun _ => rfl) (hread _ h)
    · exact h
  exact hP.mapWork_kept (fun w => { w with byte := w.byte >>> 1, k := w.k - 1, nbits := w.nbits - 1 }) (fun _ => rfl)
    (hP.writeBit_kept _ hload)

/-- A captured bit keeps what a write to DST keeps too. -/
theorem inBit_kept (hwrite : ∀ {s} k v, P s → P (memWriteDst k v s)) (h : P s) : P (inBit s) := by
  have hclear : P (clearByte s) := by
    unfold clearByte
    split
    · exact hP.mapWork_kept (fun w => { w with byte := 0, k := 8 }) (fun _ => rfl) h
    · exact h
  have hcapture : P (captureBit (clearByte s)) :=
    hP.mapWork_kept (fun w => { w with byte := shiftIn w.byte (readBit (clearByte s)).1, k := w.k - 1, nbits := w.nbits - 1 })
      (fun _ => rfl) (hP.readBit_kept hclear)
  unfold inBit storeByte
  split
  · exact hP.mapWork_kept (fun w => { w with bidx := w.bidx + 1 }) (fun _ => rfl)
      (hwrite _ _ (hP.mapWork_kept (fun w => { w with byte := w.byte >>> w.k }) (fun _ => rfl) hcapture))
  · exact hcapture

/-- The micro-operation of a phase with what it does to the working registers; only the phase of a capture writes to DST. -/
theorem phaseCycle_kept (hread : ∀ {s} k, P s → P (memReadSrc k s).2)
    (hwrite : s.phase = .seqIn → ∀ {s} k v, P s → P (memWriteDst k v s)) (h : P s) : P (phaseCycle s) := by
  unfold phaseCycle
  cases hp : s.phase with
  | idle => exact h
  | seqOut => exact hP.outBit_kept hread h
  | seqIn => exact hP.inBit_kept (hwrite hp) h
  | req => exact hP.requestBit_kept h
  | ack => exact hP.readAckBit_kept _ h
  | rdata => exact hP.readDataBit_kept _ h
  | rpar => exact hP.readParBit_kept h
  | wdata => exact hP.writeDataBit_kept _ h
  | wpar => exact hP.setRes_kept _ (hP.writeBit_kept _ h)
  | trn1 | trn2Rd | trn2Wr | idlecyc | dummyRd | trn2Err | dummyWr | backoff => exact hP.clockCycle_kept h

end KeptByCycles

/-- Kept moreover by the change of the phase and by a write of `DIO_O` alone. -/
structure KeptByPhases (P : State → Prop) : Prop extends KeptByCycles P where
  setPhase_kept : ∀ {s} p, P s → P (setPhase p s)
  setDio_kept : ∀ {s} b, P s → P (setDio b s)

namespace KeptByPhases

variable {P : State → Prop} (hP : KeptByPhases P) {s : State}
include hP

theorem sampleAck_kept (h : P s) : P (sampleAck s) :=
  hP.readAckBit_kept 2 (hP.readAckBit_kept 1 (hP.readAckBit_kept 0 (hP.setPhase_kept .ack h)))

theorem readData_kept (h : P s) : P (readData s) :=
  forUp_keeps hP.readDataBit_kept _ _ (hP.setPar_kept false (hP.setData_kept 0 (hP.setPhase_kept .rdata h)))

theorem checkParity_kept (h : P s) : P (checkParity s) := hP.readParBit_kept (hP.setPhase_kept .rpar h)

theorem writeData_kept (h : P s) : P (writeData s) :=
  forUp_keeps hP.writeDataBit_kept _ _ (hP.setPar_kept false (hP.setPhase_kept .wdata h))

theorem writeParity_kept (h : P s) : P (writeParity s) := hP.setRes_kept .ok (hP.writeBit_kept _ (hP.setPhase_kept .wpar h))

theorem idleCycles_kept (h : P s) : P (idleCycles s) := by
  unfold idleCycles
  split
  · exact hP.clockCycles_kept _ (hP.setDio_kept false (hP.setPhase_kept .idlecyc h))
  · exact h

theorem dummyRead_kept (h : P s) : P (dummyRead s) := by
  unfold dummyRead
  split
  · exact hP.clockCycles_kept _ (hP.setPhase_kept .dummyRd h)
  · exact h

theorem dummyWrite_kept (h : P s) : P (dummyWrite s) := by
  unfold dummyWrite
  split
  · exact hP.clockCycles_kept _ (hP.setDio_kept _ (hP.setPhase_kept .dummyWr h))
  · exact h

end KeptByPhases

/-- Kept moreover by the change of the direction, the load of `REQ` and of `CNT`, and the end of an operation. -/
structure KeptByOperations (P : State → Prop) : Prop extends KeptByPhases P where
  setDir_kept : ∀ {s} way, P s → P (setDir way s)
  setReq_kept : ∀ {s} req, P s → P (setReq req s)
  setCnt_kept : ∀ {s} n, P s → P { s with cnt := n }
  finish_kept : ∀ {s} r, P s → P (finish r s)
  returned_kept : ∀ {s} r, P s → P (returned r s)

namespace KeptByOperations

variable {P : State → Prop} (hP : KeptByOperations P) {s t : State}
include hP

/-! ### the procedures of a transfer -/

theorem sendRequest_kept (h : P s) : P (sendRequest s) := by
  have hstart := hP.writeBit_kept true (hP.setPar_kept false (hP.setDir_kept .host (hP.setPhase_kept .req h)))
  exact hP.writeBit_kept true (hP.writeBit_kept false (hP.writeBit_kept _
    (hP.writeBitPar_kept _ (hP.writeBitPar_kept _ (hP.writeBitPar_kept _ (hP.writeBitPar_kept _ hstart))))))

theorem turnaround1_kept (h : P s) : P (turnaround1 s) :=
  hP.clockCycles_kept _ (hP.setPhase_kept .trn1 (hP.setDir_kept .target (hP.setDio_kept true h)))

theorem requestAndAck_kept (h : P s) : P (requestAndAck s) := hP.sampleAck_kept (hP.turnaround1_kept (hP.sendRequest_kept h))

theorem turnaround2Read_kept (h : P s) : P (turnaround2Read s) :=
  hP.setDio_kept true (hP.setDir_kept .host (hP.clockCycles_kept _ (hP.setPhase_kept .trn2Rd h)))

theorem turnaround2Write_kept (h : P s) : P (turnaround2Write s) :=
  hP.setDir_kept .host (hP.clockCycles_kept _ (hP.setPhase_kept .trn2Wr h))

theorem turnaround2Error_kept (h : P s) : P (turnaround2Error s) :=
  hP.setDir_kept .host (hP.clockCycles_kept _ (hP.setPhase_kept .trn2Err h))

theorem finishOk_kept (h : P s) : P (finishOk s) := hP.finish_kept _ (hP.setDio_kept true h)

theorem finishError_kept (h : P s) : P (finishError s) := hP.finish_kept _ (hP.setDio_kept true h)

theorem recoverWaitFault_kept (h : P s) : P (recoverWaitFault s) :=
  hP.finishError_kept (hP.dummyWrite_kept (hP.turnaround2Error_kept (hP.dummyRead_kept (hP.resFromAck_kept h))))

theorem recoverProtocolError_kept (h : P s) : P (recoverProtocolError s) :=
  hP.finishError_kept (hP.setDir_kept .host (hP.clockCycles_kept _ (hP.setPhase_kept .backoff (hP.resFromAck_kept h))))

theorem okRead_kept (h : P s) : P (okRead s) :=
  hP.finishOk_kept (hP.idleCycles_kept (hP.turnaround2Read_kept (hP.checkParity_kept (hP.readData_kept h))))

theorem okWrite_kept (h : P s) : P (okWrite s) :=
  hP.finishOk_kept (hP.idleCycles_kept (hP.writeParity_kept (hP.writeData_kept (hP.turnaround2Write_kept h))))

theorem transferRead_kept (req : BitVec 4) (h : P s) : P (transferRead req s) := by
  have hack := hP.requestAndAck_kept (hP.setReq_kept req h)
  exact branchOnAck_cases (hP.okRead_kept hack) (hP.recoverWaitFault_kept hack) (hP.recoverProtocolError_kept hack)

theorem transferWrite_kept (req : BitVec 4) (w : Word) (h : P s) : P (transferWrite req w s) := by
  have hack := hP.requestAndAck_kept (hP.setData_kept w (hP.setReq_kept req h))
  exact branchOnAck_cases (hP.okWrite_kept hack) (hP.recoverWaitFault_kept hack) (hP.recoverProtocolError_kept hack)

/-! ### the sequences -/

theorem beginSeq_kept (p : Phase) (way : Dir) (n : Nat) (h : P s) : P (beginSeq p way n s) :=
  hP.mapWork_kept (fun w => { w with nbits := n, bidx := 0, k := 0 }) (fun _ => rfl)
    (hP.setDir_kept way (hP.setPhase_kept p h))

theorem sequenceOut_kept (hread : ∀ {s} k, P s → P (memReadSrc k s).2) (n : Nat) (h : P s) : P (sequenceOut n s) :=
  hP.finish_kept _ (repeatN_keeps (P := P) (fun _ => hP.outBit_kept hread) n (hP.beginSeq_kept .seqOut .host n h))

theorem sequenceIn_kept (hwrite : ∀ {s} k v, P s → P (memWriteDst k v s)) (n : Nat) (h : P s) : P (sequenceIn n s) :=
  hP.finish_kept _ (repeatN_keeps (P := P) (fun _ => hP.inBit_kept hwrite) n (hP.beginSeq_kept .seqIn .target n h))

/-! ### whole operations and steps of the sequencer -/

/-- An operation keeps what the primitives keep: of the operations only a capture writes to DST, and only `CFG_WRITE` writes the
configuration, with legal values. -/
theorem exec_kept {i : Instr} (hread : ∀ {s} k, P s → P (memReadSrc k s).2)
    (hwrite : (∃ o, i = .xchgSeqIn o) → ∀ {s} k v, P s → P (memWriteDst k v s))
    (hcfg : ∀ c : Cfg, (∃ a b d, i = .cfgWrite a b d) → c.legal s.params → P s → P { s with cfg := c })
    (h : P s) (he : exec i s = .next t) : P t := by
  cases i with
  | genSeq count =>
    obtain ⟨-, -, rfl⟩ := execGenSeq_next.mp he
    exact hP.sequenceOut_kept hread _ h
  | xchgSeqOut info =>
    obtain ⟨-, -, -, rfl⟩ := execXchgSeqOut_next.mp he
    exact hP.sequenceOut_kept hread _ h
  | xchgSeqIn info =>
    obtain ⟨-, -, -, rfl⟩ := execXchgSeqIn_next.mp he
    exact hP.sequenceIn_kept (hwrite ⟨_, rfl⟩) _ h
  | transferRd req =>
    obtain ⟨-, -, -, rfl⟩ := execTransferRd_next.mp he
    exact hP.transferRead_kept req h
  | transferWr req w =>
    obtain ⟨-, -, -, rfl⟩ := execTransferWr_next.mp he
    exact hP.transferWrite_kept req w h
  | cfgWrite turnaround idle dataPhase =>
    obtain ⟨-, ⟨hlow, hhigh⟩, hidle, rfl⟩ := execCfgWrite_next.mp he
    exact hP.returned_kept .nothing
      (hcfg ⟨turnaround.toNat, idle.toNat, dataPhase, true⟩ ⟨_, _, _, rfl⟩ (fun _ => ⟨hlow, hhigh, hidle⟩) h)
  | writeBit v =>
    obtain rfl := execWriteBit_next.mp he
    exact hP.returned_kept _ (hP.writeBit_kept v h)
  | readBit =>
    obtain rfl := execReadBit_next.mp he
    exact hP.returned_kept _ (hP.readBit_kept h)
  | clockCycle =>
    obtain rfl := execClockCycle_next.mp he
    exact hP.returned_kept _ (hP.clockCycle_kept h)

theorem entryActions_kept (p : Phase) (h : P s) : P (entryActions p s) := by
  unfold entryActions
  cases p with
  | req => exact hP.setPar_kept _ (hP.setDir_kept _ h)
  | trn1 => exact hP.setDir_kept _ (hP.setDio_kept _ h)
  | rdata => exact hP.setPar_kept _ (hP.setData_kept _ h)
  | wdata => exact hP.setPar_kept _ h
  | idlecyc | dummyWr => exact hP.setDio_kept _ h
  | dummyRd | trn2Err | backoff => exact hP.resFromAck_kept h
  | idle | seqOut | seqIn | ack | rpar | trn2Rd | trn2Wr | wpar => exact h

theorem enterPhase_kept (p : Phase) (h : P s) : P (enterPhase p s) :=
  hP.setCnt_kept _ (hP.setPhase_kept p (hP.entryActions_kept p h))

theorem idleOrEnd_kept (h : P s) : P (idleOrEnd s) := by
  unfold idleOrEnd
  split
  · exact hP.enterPhase_kept _ h
  · exact hP.finishOk_kept h

theorem exitPhase_kept (h : P s) : P (exitPhase s) := by
  have henter (p : Phase) : P (enterPhase p s) := hP.enterPhase_kept p h
  unfold exitPhase
  cases s.phase with
  | idle => exact h
  | seqOut | seqIn => exact hP.finish_kept _ h
  | req | trn1 | rdata | rpar | wdata | dummyRd => exact henter _
  | ack => exact afterAck_cases (fun _ => henter _) (fun _ => henter _) (fun _ _ => henter _) (henter _) (henter _)
  | trn2Rd => exact hP.idleOrEnd_kept (hP.setDio_kept _ (hP.setDir_kept _ h))
  | trn2Wr => exact hP.enterPhase_kept _ (hP.setDir_kept _ h)
  | wpar => exact hP.idleOrEnd_kept h
  | idlecyc => exact hP.finishOk_kept h
  | trn2Err =>
    dsimp only [afterErrorTurnaround]
    split
    · exact hP.enterPhase_kept _ (hP.setDir_kept _ h)
    · exact hP.finishError_kept (hP.setDir_kept _ h)
  | dummyWr => exact hP.finishError_kept h
  | backoff => exact hP.finishError_kept (hP.setDir_kept _ h)

/-- A step of the sequencer keeps what the primitives keep; only the phase of a capture writes to DST. -/
theorem sequencerStep_kept (hread : ∀ {s} k, P s → P (memReadSrc k s).2)
    (hwrite : s.phase = .seqIn → ∀ {s} k v, P s → P (memWriteDst k v s)) (h : P s) (hs : sequencerStep s = .next t) : P t := by
  obtain ⟨-, rfl⟩ := sequencerStep_next.mp hs
  have hcycle : P (phaseCycle s) := hP.phaseCycle_kept hread hwrite h
  split
  · exact hP.exitPhase_kept (hP.setCnt_kept 0 hcycle)
  · exact hP.setCnt_kept _ hcycle

end KeptByOperations

end Sys2Proof.Machine
end

section
/-! PROOFS. What a step runs: the word presented (10_state.md R39), else a step of the sequencer, else nothing. -/

namespace Sys2Proof.Machine

theorem fetch_uop {s : State} (h : uopPresent s.uop = true) : fetch s = some (.uop s.uop, { s with uop := 0 }) := by
  simp [fetch, h]

theorem fetch_command {s : State} {c : Command} {rest : List Command} (hu : uopPresent s.uop = false)
    (hp : s.pending = c :: rest) : fetch s = some (.cmd c.word, accept c rest s) := by
  simp [fetch, hu, hp]

theorem step_of_fetch {s s' : State} {w : CodeWord} {i : Instr} (hf : fetch s = some (w, s')) (hd : decode w = .ok i) :
    step s = exec i s' := by
  simp [step, hf, hd]

theorem step_of_fetch_none {s : State} (hf : fetch s = none) : step s = if s.busy then sequencerStep s else .next s := by
  simp [step, hf]

/-- Settles O2: `fetch` gives the word presented, and `step` runs what it decodes to. -/
theorem stepRunsThePresentedWord : Obligations.StepRunsThePresentedWord :=
  ⟨fun _ _ _ _ hu hp hd => step_of_fetch (fetch_command hu hp) hd, fun _ _ hu hd => step_of_fetch (fetch_uop hu) hd⟩

/-- Settles O4: `fetch` gives nothing, and `step` asks only whether the engine is busy. -/
theorem stepWithoutWord : Obligations.StepWithoutWord := by
  intro s hu hp
  have hstep := step_of_fetch_none (fetch_none_iff.mpr ⟨hu, hp⟩)
  exact ⟨fun hidle => by simp [hstep, hidle], fun hbusy => by simp [hstep, hbusy]⟩

end Sys2Proof.Machine
end

section
/-! PROOFS. What a transfer leaves behind (10_state.md R41, 42_transfer.md R150). -/

namespace Sys2Proof.Machine

/-- `t` has the configuration, the buffers with the record of their accesses, the parameters and the port of `s`, and `>H` would
leave in `t` the direction it would leave in `s`. -/
structure SameRecord (s t : State) : Prop where
  cfg : t.cfg = s.cfg
  src : t.src = s.src
  dst : t.dst = s.dst
  params : t.params = s.params
  pending : t.pending = s.pending
  uop : t.uop = s.uop
  accesses : t.accesses = s.accesses
  hostDir : dirAfter t .host = dirAfter s .host

theorem dirAfter_host_setDir (way : Dir) (s : State) : dirAfter (setDir way s) .host = dirAfter s .host := by
  cases hd : s.params.hasDir <;> simp [dirAfter, hd]

theorem sameRecord_kept (s₀ : State) : KeptByOperations (SameRecord s₀) where
  mapWork_kept _ _ h := { h with }
  writeBit_kept _ h := { h with }
  readBit_kept h := { h with }
  clockCycle_kept h := { h with }
  setPhase_kept _ h := { h with }
  setDio_kept _ h := { h with }
  setDir_kept way h :=
    { cfg := (setDir_cfg way _).trans h.cfg, src := (setDir_src way _).trans h.src, dst := (setDir_dst way _).trans h.dst
      params := (setDir_params way _).trans h.params, pending := (setDir_pending way _).trans h.pending
      uop := (setDir_uop way _).trans h.uop, accesses := (setDir_accesses way _).trans h.accesses
      hostDir := (dirAfter_host_setDir way _).trans h.hostDir }
  setReq_kept _ h := { h with }
  setCnt_kept _ h := { h with }
  finish_kept _ h := { h with }
  returned_kept _ h := { h with }

/-- The clock rests high; and the engine drives the line, where it has the register to say so. -/
structure HostDrives (s : State) : Prop where
  clk : s.pins.clk = true
  dioDir : s.pins.dioDir = dirAfter s .host

theorem clkHigh_kept : KeptByOperations fun s => s.pins.clk = true where
  mapWork_kept _ _ h := h
  writeBit_kept _ _ := rfl
  readBit_kept _ := rfl
  clockCycle_kept _ := rfl
  setPhase_kept _ h := h
  setDio_kept _ h := h
  setDir_kept way h := by simpa using h
  setReq_kept _ h := h
  setCnt_kept _ h := h
  finish_kept _ h := h
  returned_kept _ h := h

theorem hostDrives_kept : KeptByPhases HostDrives where
  mapWork_kept _ _ h := { h with }
  writeBit_kept _ h := ⟨rfl, h.dioDir⟩
  readBit_kept h := ⟨rfl, h.dioDir⟩
  clockCycle_kept h := ⟨rfl, h.dioDir⟩
  setPhase_kept _ h := { h with }
  setDio_kept _ h := { h with }

theorem setDir_host_hostDrives {s : State} (h : s.pins.clk = true) : HostDrives (setDir .host s) :=
  ⟨by simpa using h, by simp [dirAfter_host_setDir]⟩

/-- How every transfer ends (R146, R147, R148): idle-high, driven, in `P_IDLE`. -/
structure IdleHigh (t : State) : Prop where
  pins : t.pins = { clk := true, dioO := true, dioDir := dirAfter t .host }
  idle : t.busy = false

theorem finish_setDio_idleHigh {s : State} (r : Return) (h : HostDrives s) : IdleHigh (finish r (setDio true s)) :=
  ⟨by simp only [finish_pins, setDio_pins, h.clk, h.dioDir]; rfl, rfl⟩

theorem okRead_idleHigh {s : State} (h : s.pins.clk = true) : IdleHigh (okRead s) := by
  have hparity := clkHigh_kept.checkParity_kept (clkHigh_kept.readData_kept h)
  have hturn : HostDrives (turnaround2Read (checkParity (readData s))) :=
    hostDrives_kept.setDio_kept true
      (setDir_host_hostDrives (clkHigh_kept.clockCycles_kept _ (clkHigh_kept.setPhase_kept .trn2Rd hparity)))
  exact finish_setDio_idleHigh _ (hostDrives_kept.idleCycles_kept hturn)

theorem okWrite_idleHigh {s : State} (h : s.pins.clk = true) : IdleHigh (okWrite s) := by
  have hturn : HostDrives (turnaround2Write s) :=
    setDir_host_hostDrives (clkHigh_kept.clockCycles_kept _ (clkHigh_kept.setPhase_kept .trn2Wr h))
  exact finish_setDio_idleHigh _
    (hostDrives_kept.idleCycles_kept (hostDrives_kept.writeParity_kept (hostDrives_kept.writeData_kept hturn)))

theorem recoverWaitFault_idleHigh {s : State} (h : s.pins.clk = true) : IdleHigh (recoverWaitFault s) := by
  have hdummy := clkHigh_kept.dummyRead_kept (clkHigh_kept.resFromAck_kept h)
  have hturn : HostDrives (turnaround2Error (dummyRead (resFromAck s))) :=
    setDir_host_hostDrives (clkHigh_kept.clockCycles_kept _ (clkHigh_kept.setPhase_kept .trn2Err hdummy))
  exact finish_setDio_idleHigh _ (hostDrives_kept.dummyWrite_kept hturn)

theorem recoverProtocolError_idleHigh {s : State} (h : s.pins.clk = true) : IdleHigh (recoverProtocolError s) :=
  finish_setDio_idleHigh _ (setDir_host_hostDrives
    (clkHigh_kept.clockCycles_kept _ (clkHigh_kept.setPhase_kept .backoff (clkHigh_kept.resFromAck_kept h))))

/-- The request leaves the clock high wherever it was. -/
theorem requestAndAck_clk (s : State) : (requestAndAck s).pins.clk = true :=
  clkHigh_kept.sampleAck_kept (clkHigh_kept.turnaround1_kept (s := sendRequest s) rfl)

theorem transferRead_idleHigh (req : BitVec 4) (s : State) : IdleHigh (transferRead req s) := by
  have hclk := requestAndAck_clk (setReq req s)
  exact branchOnAck_cases (okRead_idleHigh hclk) (recoverWaitFault_idleHigh hclk)
    (recoverProtocolError_idleHigh hclk)

theorem transferWrite_idleHigh (req : BitVec 4) (w : Word) (s : State) : IdleHigh (transferWrite req w s) := by
  have hclk := requestAndAck_clk (setData w (setReq req s))
  exact branchOnAck_cases (okWrite_idleHigh hclk) (recoverWaitFault_idleHigh hclk)
    (recoverProtocolError_idleHigh hclk)

/-- Settles O43: every branch ends idle-high and driven, and no primitive of a transfer touches what is recorded. -/
theorem transferLeavesNoRecord : Obligations.TransferLeavesNoRecord := by
  intro i s t hi he
  have ⟨hend, hrec⟩ : IdleHigh t ∧ SameRecord s t := by
    have hstart : SameRecord s s := ⟨rfl, rfl, rfl, rfl, rfl, rfl, rfl, rfl⟩
    rcases hi with ⟨req, rfl⟩ | ⟨req, w, rfl⟩
    · obtain ⟨-, -, -, rfl⟩ := execTransferRd_next.mp he
      exact ⟨transferRead_idleHigh req s, (sameRecord_kept s).transferRead_kept req hstart⟩
    · obtain ⟨-, -, -, rfl⟩ := execTransferWr_next.mp he
      exact ⟨transferWrite_idleHigh req w s, (sameRecord_kept s).transferWrite_kept req w hstart⟩
  exact ⟨hrec.hostDir ▸ hend.pins, hend.idle, hrec.cfg, hrec.src, hrec.dst, hrec.params, hrec.pending, hrec.uop, hrec.accesses⟩

end Sys2Proof.Machine
end

section
/-! PROOFS. Who writes the bit buffers (10_state.md R39, R40). -/

namespace Sys2Proof.Machine

/-- SRC is `src`, and DST is `dst` unless a capture is running. -/
structure BuffersAre (src dst : Memory) (capturing : Prop) (t : State) : Prop where
  src_eq : t.src = src
  dst_eq : ¬ capturing → t.dst = dst

theorem buffersAre_kept (src dst : Memory) (capturing : Prop) : KeptByOperations (BuffersAre src dst capturing) where
  mapWork_kept _ _ h := { h with }
  writeBit_kept _ h := { h with }
  readBit_kept h := { h with }
  clockCycle_kept h := { h with }
  setPhase_kept _ h := { h with }
  setDio_kept _ h := { h with }
  setDir_kept way h := ⟨(setDir_src way _).trans h.src_eq, fun hc => (setDir_dst way _).trans (h.dst_eq hc)⟩
  setReq_kept _ h := { h with }
  setCnt_kept _ h := { h with }
  finish_kept _ h := { h with }
  returned_kept _ h := { h with }

theorem BuffersAre.memWriteDst {src dst : Memory} {capturing : Prop} {s : State} (hc : capturing) (k : Nat) (v : Byte)
    (h : BuffersAre src dst capturing s) : BuffersAre src dst capturing (memWriteDst k v s) :=
  ⟨h.src_eq, fun hn => absurd hc hn⟩

/-- An operation leaves SRC, and DST unless it is a capture. -/
theorem exec_buffers {i : Instr} {s t : State} (he : exec i s = .next t) :
    BuffersAre s.src s.dst (∃ o, i = .xchgSeqIn o) t :=
  (buffersAre_kept ..).exec_kept (fun _ h => { h with }) (fun hc _ k v => .memWriteDst hc k v) (fun _ _ _ h => { h with })
    ⟨rfl, fun _ => rfl⟩ he

/-- A step of the sequencer leaves SRC, and DST but in the phase of a capture. -/
theorem sequencerStep_buffers {s t : State} (hs : sequencerStep s = .next t) :
    BuffersAre s.src s.dst (s.phase = .seqIn) t :=
  (buffersAre_kept ..).sequencerStep_kept (fun _ h => { h with }) (fun hc _ k v => .memWriteDst hc k v)
    ⟨rfl, fun _ => rfl⟩ hs

/-- What takes the place of a default stands beside it. -/
theorem eq_some_of_getD_ne {α : Type} {o : Option α} {d : α} (h : o.getD d ≠ d) : o = some (o.getD d) := by
  cases o with
  | none => exact absurd rfl h
  | some a => rfl

/-- Fetching changes a buffer only to the one passed beside the command at the head of the port. -/
theorem fetch_buffers {s s' : State} {w : CodeWord} (hf : fetch s = some (w, s')) :
    (s'.src ≠ s.src → ∃ c rest, s.pending = c :: rest ∧ c.src = some s'.src) ∧
    (s'.dst ≠ s.dst → ∃ c rest, s.pending = c :: rest ∧ c.dst = some s'.dst) := by
  rcases fetch_cases hf with ⟨-, -, rfl⟩ | ⟨-, c, rest, hp, -, rfl⟩
  · exact ⟨fun h => absurd rfl h, fun h => absurd rfl h⟩
  · exact ⟨fun h => ⟨c, rest, hp, eq_some_of_getD_ne h⟩, fun h => ⟨c, rest, hp, eq_some_of_getD_ne h⟩⟩

/-- Settles O48: a buffer changes where the word is fetched, or where a byte is captured. -/
theorem onlyCapturesWriteBuffers : Obligations.OnlyCapturesWriteBuffers := by
  intro s t hstep
  rcases step_next_cases hstep with ⟨w, s', i, hf, hd, he⟩ | ⟨-, -, hs⟩ | ⟨-, -, rfl⟩
  · obtain ⟨hsrc, hdst⟩ := exec_buffers he
    obtain ⟨hfsrc, hfdst⟩ := fetch_buffers hf
    rw [hsrc]
    refine ⟨hfsrc, fun hne => ?_⟩
    by_cases hc : ∃ o, i = .xchgSeqIn o
    · obtain ⟨o, rfl⟩ := hc
      exact .inr (.inl ⟨w, s', o, hf, hd⟩)
    · rw [hdst hc] at hne ⊢
      exact .inl (hfdst hne)
  · obtain ⟨hsrc, hdst⟩ := sequencerStep_buffers hs
    exact ⟨fun hne => absurd hsrc hne, fun hne => .inr (.inr (by_contra fun hc => hne (hdst hc)))⟩
  · exact ⟨fun hne => absurd rfl hne, fun hne => absurd rfl hne⟩

end Sys2Proof.Machine
end

section
/-! PROOFS. A step of the sequencer is one micro-operation (10_state.md R25, 30_encoding.md R80, 40_bit_primitives.md R103). -/

namespace Sys2Proof.Machine

/-- The two states are the same on the wire: the pins, the events so far and the samples taken. -/
structure SameWire (t u : State) : Prop where
  trace : t.trace = u.trace
  pins : t.pins = u.pins
  script : t.script = u.script
  samples : t.samples = u.samples

theorem SameWire.refl (s : State) : SameWire s s := ⟨rfl, rfl, rfl, rfl⟩

theorem SameWire.writeBit {t u : State} (h : SameWire t u) (b : Bit) : SameWire (writeBit b t) (writeBit b u) where
  trace := by simp [h.trace]
  pins := by simp [h.pins]
  script := h.script
  samples := h.samples

theorem SameWire.readBit {t u : State} (h : SameWire t u) : SameWire (readBit t).2 (readBit u).2 where
  trace := by simp [h.trace, nextSample_eq_sampleAt, sampleAt_congr h.script h.samples]
  pins := by simp [h.pins]
  script := by simp [h.script]
  samples := by simp [h.samples]

/-! ### what a phase adds to its micro-operation is not on the wire -/

theorem loadByte_sameWire (s : State) : SameWire (loadByte s) s := by
  unfold loadByte
  split
  · exact ⟨rfl, rfl, rfl, rfl⟩
  · exact .refl s

theorem outBit_sameWire (s : State) : SameWire (outBit s) (writeBit ((loadByte s).work.byte.getLsbD 0) s) :=
  { (loadByte_sameWire s).writeBit _ with }

theorem clearByte_sameWire (s : State) : SameWire (clearByte s) s := by
  unfold clearByte
  split
  · exact ⟨rfl, rfl, rfl, rfl⟩
  · exact .refl s

theorem storeByte_sameWire {s u : State} (h : SameWire s u) : SameWire (storeByte s) u := by
  unfold storeByte
  split
  · exact { h with }
  · exact h

theorem inBit_sameWire (s : State) : SameWire (inBit s) (readBit s).2 :=
  storeByte_sameWire { (clearByte_sameWire s).readBit with }

theorem requestBit_sameWire (s : State) :
    SameWire (requestBit s) (writeBit ((packet s.work.req).getLsbD (stepsDone 8 s)) s) := by
  simp only [requestBit]
  split
  · exact ⟨rfl, rfl, rfl, rfl⟩
  · exact .refl _

theorem readParBit_sameWire (s : State) : SameWire (readParBit s) (readBit s).2 := by
  simp only [readParBit]
  split
  · exact ⟨rfl, rfl, rfl, rfl⟩
  · exact ⟨rfl, rfl, rfl, rfl⟩

/-! ### the micro-operation of each phase -/

/-- From `s` to `t` the wire sees what the micro-operation spelled `w` does: one clock cycle. -/
def RunsMicroOp (w : BitVec 3) (s t : State) : Prop :=
  ∃ i u, decodeUop w = .ok i ∧ exec i s = .next u ∧ cycles u.trace = cycles s.trace + 1 ∧ SameWire t u

theorem decodeUop_writeBit (v : Bit) : decodeUop (0b10#2 ++ BitVec.ofBool v) = .ok (.writeBit v) := by
  cases v <;> decide

theorem runsMicroOp_writeBit {s t : State} {v : Bit} (h : SameWire t (writeBit v s)) :
    RunsMicroOp (0b10#2 ++ BitVec.ofBool v) s t :=
  ⟨.writeBit v, _, decodeUop_writeBit v, rfl, by simp, { h with }⟩

theorem runsMicroOp_readBit {s t : State} (h : SameWire t (readBit s).2) : RunsMicroOp 0b110 s t :=
  ⟨.readBit, _, by decide, rfl, by simp, { h with }⟩

theorem runsMicroOp_clockCycle (s : State) : RunsMicroOp 0b010 s (clockCycle s) :=
  ⟨.clockCycle, _, by decide, rfl, by simp [cycles], ⟨rfl, rfl, rfl, rfl⟩⟩

/-- What a phase does in a cycle is, on the wire, the micro-operation its word spells. -/
theorem phaseCycle_runsMicroOp {s : State} (hb : s.busy = true) : RunsMicroOp (uopOf s) s (phaseCycle s) := by
  unfold phaseCycle uopOf
  cases hp : s.phase with
  | idle => exact absurd hp (busy_true_iff.mp hb)
  | seqOut => exact runsMicroOp_writeBit (outBit_sameWire s)
  | seqIn => exact runsMicroOp_readBit (inBit_sameWire s)
  | req => exact runsMicroOp_writeBit (requestBit_sameWire s)
  | wdata | wpar => exact runsMicroOp_writeBit ⟨rfl, rfl, rfl, rfl⟩
  | ack | rdata => exact runsMicroOp_readBit ⟨rfl, rfl, rfl, rfl⟩
  | rpar => exact runsMicroOp_readBit (readParBit_sameWire s)
  | trn1 | trn2Rd | trn2Wr | idlecyc | dummyRd | trn2Err | dummyWr | backoff => exact runsMicroOp_clockCycle s

/-! ### leaving a phase issues no clock cycle -/

@[simp] theorem cycles_cons_d (b : Bit) (evs : List PinEvent) : cycles (.d b :: evs) = cycles evs := by simp [cycles]

@[simp] theorem entryActions_cycles (p : Phase) (s : State) : cycles (entryActions p s).trace = cycles s.trace := by
  cases p <;> simp [entryActions, resFromAck]

@[simp] theorem enterPhase_cycles (p : Phase) (s : State) : cycles (enterPhase p s).trace = cycles s.trace :=
  entryActions_cycles p s

@[simp] theorem finishOk_cycles (s : State) : cycles (finishOk s).trace = cycles s.trace := by simp [finishOk]

@[simp] theorem finishError_cycles (s : State) : cycles (finishError s).trace = cycles s.trace := by simp [finishError]

@[simp] theorem idleOrEnd_cycles (s : State) : cycles (idleOrEnd s).trace = cycles s.trace := by
  unfold idleOrEnd
  split <;> simp

@[simp] theorem afterAck_cycles (s : State) : cycles (afterAck s).trace = cycles s.trace :=
  afterAck_cases (Q := fun t => cycles t.trace = cycles s.trace) (fun _ => enterPhase_cycles _ s)
    (fun _ => enterPhase_cycles _ s) (fun _ _ => enterPhase_cycles _ s) (enterPhase_cycles _ s) (enterPhase_cycles _ s)

@[simp] theorem afterErrorTurnaround_cycles (s : State) : cycles (afterErrorTurnaround s).trace = cycles s.trace := by
  unfold afterErrorTurnaround
  split <;> simp

theorem exitPhase_cycles (s : State) : cycles (exitPhase s).trace = cycles s.trace := by
  unfold exitPhase
  cases s.phase <;> simp

theorem sequencerStep_cycles {s t : State} (hs : sequencerStep s = .next t) :
    cycles t.trace = cycles (phaseCycle s).trace := by
  obtain ⟨-, rfl⟩ := sequencerStep_next.mp hs
  split
  · exact exitPhase_cycles _
  · rfl

/-- Settles O53: the phase's cycle is the micro-operation, and leaving the phase issues no cycle. -/
theorem sequencerStepIsOneMicroOperation : Obligations.SequencerStepIsOneMicroOperation := by
  intro s hb hcnt
  obtain ⟨i, u, hdec, hexec, hcycle, hwire⟩ := phaseCycle_runsMicroOp hb
  have hstep := sequencerStep_next.mpr ⟨Nat.ne_of_gt hcnt, rfl⟩
  exact ⟨_, i, u, hstep, by rw [sequencerStep_cycles hstep, hwire.trace, hcycle], hdec, hexec,
    hwire.trace, hwire.pins, hwire.script, hwire.samples⟩

end Sys2Proof.Machine
end

section
/-! PROOFS. The invariant of the machine, in parts: what holds whatever the phase, what a phase says of the line and of the request,
and what it says of the counters. Every primitive keeps the first; a cycle of a phase keeps the second, and leaving the phase gives
that of the next one; the third is arithmetic. -/

namespace Sys2Proof.Machine

/-- What `Inv` says whatever the phase. -/
structure InvBase (s : State) : Prop where
  srcWf : s.src.wf = true
  dstWf : s.dst.wf = true
  pendingWf : ∀ c ∈ s.pending, ∀ m, c.src = some m ∨ c.dst = some m → m.wf = true
  cfgLegal : s.cfg.legal s.params
  clkHigh : s.pins.clk = true

/-- What `Inv` says in the phase `p` of the line, the configuration and the request. -/
structure PhaseLine (p : Phase) (s : State) : Prop where
  valid : p.ofTransfer = true → s.cfg.valid = true
  lineDir : s.params.hasDir = true → ∀ way, p.direction = some way → s.pins.dioDir = way
  releasedHigh : p.released = true → s.pins.dioO = true
  idleLow : p = .idlecyc → s.pins.dioO = false
  dummyLevel : p = .dummyWr → s.pins.dioO = s.params.dummyWriteLevel
  rnwPhase : ∀ b, p.needsRnw = some b → s.rnw = b
  dummyPhase : p = .dummyRd ∨ p = .dummyWr → s.cfg.dataPhase = true

/-- What `Inv` says of the counters. -/
structure CountersOk (s : State) : Prop where
  cntPos : s.busy = true → 0 < s.cnt
  transferCnt : s.phase.ofTransfer = true → s.cnt ≤ cntLoad s.phase s
  seqOutCnt : s.phase = .seqOut → s.cnt = s.work.nbits ∧ s.cnt ≤ max s.params.genMax 64
  seqInCnt : s.phase = .seqIn → s.cnt = s.work.nbits ∧ s.cnt ≤ 64
  kRange : s.phase = .seqOut ∨ s.phase = .seqIn → s.work.k ≤ 8

/-- What `Inv` says of the phase in progress. -/
structure PhaseInv (s : State) : Prop where
  line : PhaseLine s.phase s
  counters : CountersOk s

theorem inv_iff {s : State} : Inv s ↔ InvBase s ∧ (s.busy = true → uopPresent s.uop = false) ∧ PhaseInv s where
  mp h := ⟨⟨h.srcWf, h.dstWf, h.pendingWf, h.cfgLegal, h.clkHigh⟩, h.noStrayUop,
    ⟨fun hp => (h.transferCfg hp).1, h.lineDir, h.releasedHigh, h.idleLow, h.dummyLevel, h.rnwPhase, h.dummyPhase⟩,
    ⟨h.cntPos, fun hp => (h.transferCfg hp).2, h.seqOutCnt, h.seqInCnt, h.kRange⟩⟩
  mpr := fun ⟨hbase, huop, hline, hcnt⟩ =>
    { hbase, hline, hcnt with noStrayUop := huop, transferCfg := fun hp => ⟨hline.valid hp, hcnt.transferCnt hp⟩ }

/-! ### in P_IDLE -/

theorem phaseInv_of_idle {s : State} (h : s.phase = .idle) : PhaseInv s where
  line := by constructor <;> simp [h, Phase.ofTransfer, Phase.direction, Phase.released, Phase.needsRnw]
  counters := by constructor <;> simp [h, State.busy, Phase.ofTransfer]

theorem inv_of_idle {s : State} (hb : InvBase s) (h : s.phase = .idle) : Inv s :=
  inv_iff.mpr ⟨hb, fun hbusy => absurd h (busy_true_iff.mp hbusy), phaseInv_of_idle h⟩

/-- Settles O54: the reset state is idle, with empty buffers, no configuration and a high clock. -/
theorem resetMeetsInvariant : Obligations.ResetMeetsInvariant :=
  inv_of_idle ⟨rfl, rfl, by simp [State.reset], by simp [State.reset, Cfg.legal], rfl⟩ rfl

/-! ### the base -/

theorem invBase_kept : KeptByOperations InvBase where
  mapWork_kept _ _ h := { h with }
  writeBit_kept _ h := { h with clkHigh := rfl }
  readBit_kept h := { h with clkHigh := rfl }
  clockCycle_kept h := { h with clkHigh := rfl }
  setPhase_kept _ h := { h with }
  setDio_kept _ h := { h with }
  setDir_kept _ h := ⟨by simpa using h.srcWf, by simpa using h.dstWf, by simpa using h.pendingWf, by simpa using h.cfgLegal,
    by simpa using h.clkHigh⟩
  setReq_kept _ h := { h with }
  setCnt_kept _ h := { h with }
  finish_kept _ h := { h with }
  returned_kept _ h := { h with }

theorem InvBase.memReadSrc {s : State} (k : Nat) (h : InvBase s) : InvBase (memReadSrc k s).2 := { h with }

theorem InvBase.memWriteDst {s : State} (k : Nat) (v : Byte) (h : InvBase s) : InvBase (memWriteDst k v s) :=
  { h with dstWf := Memory.write_wf h.dstWf k v }

/-- A buffer passed beside a command takes the place of one in canonical form. -/
theorem wf_getD {o : Option Memory} {m : Memory} (hm : m.wf = true) (ho : ∀ a, o = some a → a.wf = true) :
    (o.getD m).wf = true := by
  cases o with
  | none => exact hm
  | some a => exact ho a rfl

theorem fetch_invBase {s s' : State} {w : CodeWord} (hf : fetch s = some (w, s')) (h : InvBase s) : InvBase s' := by
  rcases fetch_cases hf with ⟨-, -, rfl⟩ | ⟨-, c, rest, hp, -, rfl⟩
  · exact { h with }
  · have hpend := h.pendingWf
    rw [hp] at hpend
    exact { h with
      srcWf := wf_getD h.srcWf fun m hm => hpend c (by simp) m (.inl hm)
      dstWf := wf_getD h.dstWf fun m hm => hpend c (by simp) m (.inr hm)
      pendingWf := fun c' hc' => hpend c' (by simp [show c' ∈ rest from hc']) }

/-! ### a word presented -/

/-- A command ends in `P_IDLE`; a micro-operation leaves the phase. -/
theorem exec_phase {i : Instr} {s t : State} (he : exec i s = .next t) :
    t.phase = .idle ∨ i.isMicroOp = true ∧ t.phase = s.phase := by
  cases i with
  | genSeq count => obtain ⟨-, -, rfl⟩ := execGenSeq_next.mp he; exact .inl rfl
  | xchgSeqOut info => obtain ⟨-, -, -, rfl⟩ := execXchgSeqOut_next.mp he; exact .inl rfl
  | xchgSeqIn info => obtain ⟨-, -, -, rfl⟩ := execXchgSeqIn_next.mp he; exact .inl rfl
  | transferRd req =>
    obtain ⟨-, -, -, rfl⟩ := execTransferRd_next.mp he
    exact .inl (busy_false_iff.mp (transferRead_idleHigh req s).idle)
  | transferWr req w =>
    obtain ⟨-, -, -, rfl⟩ := execTransferWr_next.mp he
    exact .inl (busy_false_iff.mp (transferWrite_idleHigh req w s).idle)
  | cfgWrite tn idl dp => obtain ⟨hidle, -, -, rfl⟩ := execCfgWrite_next.mp he; exact .inl (busy_false_iff.mp hidle)
  | writeBit v => obtain rfl := execWriteBit_next.mp he; exact .inr ⟨rfl, rfl⟩
  | readBit => obtain rfl := execReadBit_next.mp he; exact .inr ⟨rfl, rfl⟩
  | clockCycle => obtain rfl := execClockCycle_next.mp he; exact .inr ⟨rfl, rfl⟩

/-- No command word spells a micro-operation (D27). -/
theorem decodeCmd_isMicroOp {w : BitVec 44} {i : Instr} (h : decodeCmd w = .ok i) : i.isMicroOp = false := by
  simp only [decodeCmd, decodeGenSeq, decodeXchgSeq, decodeTransfer, decodeCfgWrite] at h
  split_ifs at h <;> cases h <;> rfl

/-- With no stray micro-operation a presented word leaves the engine idle. -/
theorem exec_fetched_phase {s s' t : State} {w : CodeWord} {i : Instr} (huop : s.busy = true → uopPresent s.uop = false)
    (hf : fetch s = some (w, s')) (hd : decode w = .ok i) (he : exec i s' = .next t) : t.phase = .idle := by
  rcases exec_phase he with hidle | ⟨hmicro, hphase⟩
  · exact hidle
  · rcases fetch_cases hf with ⟨hu, -, rfl⟩ | ⟨-, c, rest, -, rfl, -⟩
    · have hbusy : s.busy = false := by
        cases hb : s.busy with
        | false => rfl
        | true => exact absurd hu (by simp [huop hb])
      exact hphase.trans (busy_false_iff.mp hbusy)
    · exact absurd hmicro (by simp [decodeCmd_isMicroOp hd])

theorem exec_inv {s s' t : State} {w : CodeWord} {i : Instr} (hinv : Inv s) (hf : fetch s = some (w, s'))
    (hd : decode w = .ok i) (he : exec i s' = .next t) : Inv t := by
  obtain ⟨hbase, huop, -⟩ := inv_iff.mp hinv
  have hbase' : InvBase t := invBase_kept.exec_kept (fun k h => h.memReadSrc k) (fun _ _ k v h => h.memWriteDst k v)
    (fun _ _ hlegal h => { h with cfgLegal := hlegal }) (fetch_invBase hf hbase) he
  exact inv_of_idle hbase' (exec_fetched_phase huop hf hd he)

end Sys2Proof.Machine
end

section
/-! PROOFS. A step of the sequencer keeps the invariant (10_state.md R25, 42_transfer.md R152, R155). -/

namespace Sys2Proof.Machine

/-! ### a cycle of a phase -/

/-- `t` has the configuration, the phase, the request and the direction of the line of `s`. -/
structure SameSetting (s t : State) : Prop where
  cfg : t.cfg = s.cfg
  params : t.params = s.params
  phase : t.phase = s.phase
  req : t.work.req = s.work.req
  dioDir : t.pins.dioDir = s.pins.dioDir

theorem sameSetting_kept (s₀ : State) : KeptByCycles (SameSetting s₀) where
  mapWork_kept _ hf h := { h with req := (hf _).trans h.req }
  writeBit_kept _ h := { h with }
  readBit_kept h := { h with }
  clockCycle_kept h := { h with }

theorem phaseCycle_setting (s : State) : SameSetting s (phaseCycle s) :=
  (sameSetting_kept s).phaseCycle_kept (fun _ h => { h with }) (fun _ _ _ _ h => { h with }) ⟨rfl, rfl, rfl, rfl, rfl⟩

/-- Where the level of the line is part of the invariant, the phase's micro-operation is `READ_BIT` or `CLOCK_CYCLE`. -/
theorem phaseCycle_dioO {s : State} (h : s.phase.released = true ∨ s.phase = .idlecyc ∨ s.phase = .dummyWr) :
    (phaseCycle s).pins.dioO = s.pins.dioO := by
  unfold phaseCycle
  cases hp : s.phase with
  | idle | trn1 | ack | rdata | trn2Rd | trn2Wr | idlecyc | dummyRd | trn2Err | dummyWr | backoff => rfl
  | rpar => exact (congrArg Pins.dioO (readParBit_sameWire s).pins :)
  | seqOut | seqIn | req | wdata | wpar => simp [hp, Phase.released] at h

theorem phaseCycle_line {s : State} (h : PhaseLine s.phase s) : PhaseLine s.phase (phaseCycle s) := by
  have hset := phaseCycle_setting s
  exact
    { valid := by simpa [hset.cfg] using h.valid
      lineDir := by simpa [hset.params, hset.dioDir] using h.lineDir
      releasedHigh := fun hr => (phaseCycle_dioO (.inl hr)).trans (h.releasedHigh hr)
      idleLow := fun hi => (phaseCycle_dioO (.inr (.inl hi))).trans (h.idleLow hi)
      dummyLevel := fun hd => by rw [phaseCycle_dioO (.inr (.inr hd)), hset.params, h.dummyLevel hd]
      rnwPhase := by simpa [State.rnw, hset.req] using h.rnwPhase
      dummyPhase := by simpa [hset.cfg] using h.dummyPhase }

/-- The load of a phase of a transfer is fixed by the configuration. -/
theorem cntLoad_congr {p : Phase} {s t : State} (hp : p.ofTransfer = true) (h : t.cfg = s.cfg) :
    cntLoad p t = cntLoad p s := by
  cases p with
  | idle | seqOut | seqIn => cases hp
  | req | ack | rdata | rpar | wdata | wpar | dummyRd | dummyWr => rfl
  | trn1 | trn2Rd | trn2Wr | trn2Err | idlecyc | backoff => simp only [cntLoad, h]

/-- A bit sent leaves one bit less, and a byte with at most 8 bits. -/
theorem outBit_counters (s : State) : (outBit s).work.nbits = s.work.nbits - 1 ∧ (s.work.k ≤ 8 → (outBit s).work.k ≤ 8) := by
  simp only [outBit, loadByte]
  split
  · exact ⟨rfl, fun _ => show 8 - 1 ≤ 8 by decide⟩
  · exact ⟨rfl, fun hk => Nat.le_trans (Nat.sub_le ..) hk⟩

theorem clearByte_counters (s : State) :
    (clearByte s).work.nbits = s.work.nbits ∧ (s.work.k ≤ 8 → (clearByte s).work.k ≤ 8) := by
  unfold clearByte
  split
  · exact ⟨rfl, fun _ => Nat.le_refl 8⟩
  · exact ⟨rfl, id⟩

theorem storeByte_counters (s : State) :
    (storeByte s).work.nbits = s.work.nbits ∧ (storeByte s).work.k = s.work.k := by
  unfold storeByte
  split <;> exact ⟨rfl, rfl⟩

/-- A bit captured leaves one bit less, and a byte with room for at most 8 bits. -/
theorem inBit_counters (s : State) : (inBit s).work.nbits = s.work.nbits - 1 ∧ (s.work.k ≤ 8 → (inBit s).work.k ≤ 8) := by
  obtain ⟨hclear, hclear_k⟩ := clearByte_counters s
  obtain ⟨hstore, hstore_k⟩ := storeByte_counters (captureBit (clearByte s))
  have hcapture : (captureBit (clearByte s)).work.nbits = (clearByte s).work.nbits - 1 := rfl
  have hcapture_k : (captureBit (clearByte s)).work.k = (clearByte s).work.k - 1 := rfl
  exact ⟨by rw [inBit, hstore, hcapture, hclear],
    fun hk => by rw [inBit, hstore_k, hcapture_k]; exact Nat.le_trans (Nat.sub_le ..) (hclear_k hk)⟩

/-- In a sequence a cycle leaves one bit less. -/
theorem phaseCycle_counters {s : State} (hp : s.phase = .seqOut ∨ s.phase = .seqIn) :
    (phaseCycle s).work.nbits = s.work.nbits - 1 ∧ (s.work.k ≤ 8 → (phaseCycle s).work.k ≤ 8) := by
  unfold phaseCycle
  rcases hp with hp | hp
  · rw [hp]; exact outBit_counters s
  · rw [hp]; exact inBit_counters s

/-- A cycle that is not the last of its phase keeps the counters. -/
theorem phaseCycle_countersOk {s : State} (h : CountersOk s) (h0 : s.cnt ≠ 0) (h1 : s.cnt ≠ 1) :
    CountersOk { phaseCycle s with cnt := s.cnt - 1 } := by
  have hset := phaseCycle_setting s
  constructor
  case cntPos => exact fun _ => show 0 < s.cnt - 1 by omega
  all_goals dsimp only; rw [hset.phase]
  case transferCnt =>
    intro hp
    calc s.cnt - 1
      _ ≤ s.cnt := Nat.sub_le ..
      _ ≤ cntLoad s.phase s := h.transferCnt hp
      _ = cntLoad s.phase { phaseCycle s with cnt := s.cnt - 1 } := (cntLoad_congr hp hset.cfg).symm
  case seqOutCnt =>
    intro hp
    have := h.seqOutCnt hp
    rw [(phaseCycle_counters (.inl hp)).1, hset.params]
    omega
  case seqInCnt =>
    intro hp
    have := h.seqInCnt hp
    rw [(phaseCycle_counters (.inr hp)).1]
    omega
  case kRange => exact fun hp => (phaseCycle_counters hp).2 (h.kRange hp)

/-! ### entering a phase of a transfer -/

@[simp] theorem entryActions_cfg (p : Phase) (s : State) : (entryActions p s).cfg = s.cfg := by
  cases p <;> simp [entryActions, resFromAck]

@[simp] theorem entryActions_params (p : Phase) (s : State) : (entryActions p s).params = s.params := by
  cases p <;> simp [entryActions, resFromAck]

@[simp] theorem entryActions_rnw (p : Phase) (s : State) : (entryActions p s).rnw = s.rnw := by
  cases p <;> simp [entryActions, resFromAck, State.rnw]

/-- Only the first turnaround releases the line at its entry; the other phases with a released line find it so. -/
theorem entryActions_pins {p : Phase} (hp : p.released = true) (hne : p ≠ .trn1) (s : State) :
    (entryActions p s).pins = s.pins := by
  cases p with
  | idle | seqOut | seqIn | req | wdata | wpar | idlecyc | dummyWr => cases hp
  | trn1 => exact absurd rfl hne
  | ack | rdata | rpar | trn2Rd | trn2Wr | dummyRd | trn2Err | backoff => rfl

theorem Phase.ofTransfer_of_released {p : Phase} (hp : p.released = true) : p.ofTransfer = true := by
  revert hp; cases p <;> decide

theorem Phase.direction_of_released {p : Phase} (hp : p.released = true) : p.direction = some .target := by
  revert hp; cases p <;> decide

/-- With a legal configuration every phase of a transfer but the idle cycles has steps. -/
theorem cntLoad_pos {p : Phase} {s : State} (hlegal : s.cfg.legal s.params) (hvalid : s.cfg.valid = true)
    (hp : p.ofTransfer = true) (hidle : p = .idlecyc → 0 < s.cfg.idle) : 0 < cntLoad p s := by
  obtain ⟨hturn, -, -⟩ := hlegal hvalid
  cases p with
  | idle | seqOut | seqIn => cases hp
  | req | ack | rdata | rpar | wdata | wpar | dummyRd | dummyWr => exact Nat.succ_pos _
  | trn1 | trn2Rd | trn2Wr | trn2Err => exact hturn
  | idlecyc => exact hidle rfl
  | backoff => exact Nat.succ_pos _

/-- A phase entered with the line as it wants it starts with its counter at the load. -/
theorem enterPhase_phaseInv {p : Phase} {s : State} (hp : p.ofTransfer = true) (hload : 0 < cntLoad p s)
    (hline : PhaseLine p (entryActions p s)) : PhaseInv (enterPhase p s) where
  line := { hline with }
  counters :=
    { cntPos := fun _ => hload
      transferCnt := fun _ => Nat.le_of_eq (cntLoad_congr hp (entryActions_cfg p s)).symm
      seqOutCnt := by rintro (rfl : p = _); cases hp
      seqInCnt := by rintro (rfl : p = _); cases hp
      kRange := by rintro ((rfl : p = _) | (rfl : p = _)) <;> cases hp }

/-- From a phase with the line released to another. -/
theorem enterPhase_of_released {p q : Phase} {s : State} (hlegal : s.cfg.legal s.params) (hline : PhaseLine p s)
    (hp : p.released = true) (hq : q.released = true) (hne : q ≠ .trn1) (hrnw : ∀ b, q.needsRnw = some b → s.rnw = b)
    (hdummy : q = .dummyRd → s.cfg.dataPhase = true) : PhaseInv (enterPhase q s) := by
  have hvalid := hline.valid (Phase.ofTransfer_of_released hp)
  have htransfer := Phase.ofTransfer_of_released hq
  refine enterPhase_phaseInv htransfer (cntLoad_pos hlegal hvalid htransfer (by rintro rfl; cases hq)) ?_
  exact
    { valid := fun _ => by simpa using hvalid
      lineDir := fun hdir way hway => by
        rw [Phase.direction_of_released hq] at hway
        cases hway
        rw [entryActions_pins hq hne]
        exact hline.lineDir (by simpa using hdir) _ (Phase.direction_of_released hp)
      releasedHigh := fun _ => by rw [entryActions_pins hq hne]; exact hline.releasedHigh hp
      idleLow := by rintro rfl; cases hq
      dummyLevel := by rintro rfl; cases hq
      rnwPhase := by simpa using hrnw
      dummyPhase := by
        rintro (rfl | rfl)
        · simpa using hdummy rfl
        · cases hq }

/-- A transfer with a legal configuration has the line, where there is a register to say so. -/
structure DrivesTransfer (s : State) : Prop where
  legal : s.cfg.legal s.params
  valid : s.cfg.valid = true
  dir : s.params.hasDir = true → s.pins.dioDir = .host

theorem setDir_host_drivesTransfer {s : State} (hlegal : s.cfg.legal s.params) (hvalid : s.cfg.valid = true) :
    DrivesTransfer (setDir .host s) :=
  ⟨by simpa using hlegal, by simpa using hvalid, fun h => by simp_all [dirAfter]⟩

/-- To a phase in which the engine drives the line; the request comes first and is not entered from another phase. -/
theorem enterPhase_of_driven {q : Phase} {s : State} (h : DrivesTransfer s) (htransfer : q.ofTransfer = true)
    (hq : q.direction = some .host) (hne : q ≠ .req) (hrnw : ∀ b, q.needsRnw = some b → s.rnw = b)
    (hidle : q = .idlecyc → 0 < s.cfg.idle) (hdummy : q = .dummyWr → s.cfg.dataPhase = true) : PhaseInv (enterPhase q s) := by
  have hdriven : q.released = false := by revert hq; cases q <;> decide
  have hdir : (entryActions q s).pins.dioDir = s.pins.dioDir := by
    revert htransfer hq hne; cases q <;> simp [entryActions, Phase.direction, Phase.ofTransfer]
  refine enterPhase_phaseInv htransfer (cntLoad_pos h.legal h.valid htransfer hidle) ?_
  exact
    { valid := fun _ => by simpa using h.valid
      lineDir := fun hd way hway => by
        rw [hq] at hway
        cases hway
        exact hdir.trans (h.dir (by simpa using hd))
      releasedHigh := by simp [hdriven]
      idleLow := by rintro rfl; rfl
      dummyLevel := by rintro rfl; rfl
      rnwPhase := by simpa using hrnw
      dummyPhase := by
        rintro (rfl | rfl)
        · cases hdriven
        · simpa using hdummy rfl }

/-- The first turnaround releases the line (R132). -/
theorem enterTurnaround1_phaseInv {s : State} (hlegal : s.cfg.legal s.params) (hvalid : s.cfg.valid = true) :
    PhaseInv (enterPhase .trn1 s) := by
  refine enterPhase_phaseInv rfl (cntLoad_pos hlegal hvalid rfl nofun) ?_
  constructor <;> simp_all [entryActions, Phase.direction, Phase.needsRnw, dirAfter]

theorem idleOrEnd_phaseInv {s : State} (h : DrivesTransfer s) : PhaseInv (idleOrEnd s) := by
  unfold idleOrEnd
  split
  · next hidle => exact enterPhase_of_driven h rfl rfl nofun nofun (fun _ => hidle) nofun
  · exact phaseInv_of_idle rfl

/-! ### leaving a phase -/

theorem afterAck_phaseInv {s : State} (hlegal : s.cfg.legal s.params) (hline : PhaseLine .ack s) : PhaseInv (afterAck s) := by
  apply afterAck_cases
  · exact fun hr => enterPhase_of_released hlegal hline rfl rfl nofun (fun b hb => by cases hb; exact hr) nofun
  · exact fun hw => enterPhase_of_released hlegal hline rfl rfl nofun (fun b hb => by cases hb; exact hw) nofun
  · exact fun hd hr =>
      enterPhase_of_released hlegal hline rfl rfl nofun (fun b hb => by cases hb; exact hr) (fun _ => hd)
  · exact enterPhase_of_released hlegal hline rfl rfl nofun nofun nofun
  · exact enterPhase_of_released hlegal hline rfl rfl nofun nofun nofun

theorem afterErrorTurnaround_phaseInv {s : State} (h : DrivesTransfer s) : PhaseInv (afterErrorTurnaround s) := by
  unfold afterErrorTurnaround
  split
  · next hd =>
    exact enterPhase_of_driven h rfl rfl nofun (fun b hb => by cases hb; exact hd.2) nofun (fun _ => hd.1)
  · exact phaseInv_of_idle rfl

/-- Every way out of a phase leads to what the next phase wants (R152). -/
theorem exitPhase_phaseInv {s : State} (hlegal : s.cfg.legal s.params) (hline : PhaseLine s.phase s) :
    PhaseInv (exitPhase s) := by
  unfold exitPhase
  cases hp : s.phase with
  | idle => exact phaseInv_of_idle hp
  | seqOut | seqIn | idlecyc | dummyWr | backoff => exact phaseInv_of_idle rfl
  | req =>
    rw [hp] at hline
    exact enterTurnaround1_phaseInv hlegal (hline.valid rfl)
  | trn1 | dummyRd =>
    rw [hp] at hline
    exact enterPhase_of_released hlegal hline rfl rfl nofun nofun nofun
  | ack =>
    rw [hp] at hline
    exact afterAck_phaseInv hlegal hline
  | rdata | rpar =>
    rw [hp] at hline
    exact enterPhase_of_released hlegal hline rfl rfl nofun hline.rnwPhase nofun
  | trn2Rd =>
    rw [hp] at hline
    exact idleOrEnd_phaseInv { setDir_host_drivesTransfer hlegal (hline.valid rfl) with }
  | trn2Wr =>
    rw [hp] at hline
    exact enterPhase_of_driven (setDir_host_drivesTransfer hlegal (hline.valid rfl)) rfl rfl nofun
      (fun b hb => by simpa [State.rnw] using hline.rnwPhase b hb) nofun nofun
  | wdata =>
    rw [hp] at hline
    exact enterPhase_of_driven ⟨hlegal, hline.valid rfl, fun hd => hline.lineDir hd _ rfl⟩ rfl rfl nofun
      hline.rnwPhase nofun nofun
  | wpar =>
    rw [hp] at hline
    exact idleOrEnd_phaseInv ⟨hlegal, hline.valid rfl, fun hd => hline.lineDir hd _ rfl⟩
  | trn2Err =>
    rw [hp] at hline
    exact afterErrorTurnaround_phaseInv (setDir_host_drivesTransfer hlegal (hline.valid rfl))

/-! ### the step -/

/-- The micro-operation latch is the dispatcher's: the sequencer leaves it. -/
theorem uop_kept (u : BitVec 3) : KeptByOperations fun s => s.uop = u where
  mapWork_kept _ _ h := h
  writeBit_kept _ h := h
  readBit_kept h := h
  clockCycle_kept h := h
  setPhase_kept _ h := h
  setDio_kept _ h := h
  setDir_kept way h := (setDir_uop way _).trans h
  setReq_kept _ h := h
  setCnt_kept _ h := h
  finish_kept _ h := h
  returned_kept _ h := h

theorem sequencerStep_phaseInv {s t : State} (hlegal : s.cfg.legal s.params) (h : PhaseInv s)
    (hs : sequencerStep s = .next t) : PhaseInv t := by
  obtain ⟨h0, rfl⟩ := sequencerStep_next.mp hs
  have hset := phaseCycle_setting s
  have hlegal' : (phaseCycle s).cfg.legal (phaseCycle s).params := by rw [hset.cfg, hset.params]; exact hlegal
  have hline : PhaseLine (phaseCycle s).phase (phaseCycle s) := by rw [hset.phase]; exact phaseCycle_line h.line
  split
  · exact exitPhase_phaseInv hlegal' { hline with }
  · next h1 => exact ⟨{ hline with }, phaseCycle_countersOk h.counters h0 h1⟩

theorem sequencerStep_inv {s t : State} (hinv : Inv s) (hbusy : s.busy = true) (hs : sequencerStep s = .next t) : Inv t := by
  obtain ⟨hbase, huop, hphase⟩ := inv_iff.mp hinv
  have hbase' : InvBase t :=
    invBase_kept.sequencerStep_kept (fun k h => h.memReadSrc k) (fun _ _ k v h => h.memWriteDst k v) hbase hs
  have huop' : t.uop = s.uop := (uop_kept s.uop).sequencerStep_kept (fun _ h => h) (fun _ _ _ _ h => h) rfl hs
  exact inv_iff.mpr ⟨hbase', fun _ => by rw [huop']; exact huop hbusy, sequencerStep_phaseInv hbase.cfgLegal hphase hs⟩

/-- Settles O55: a word presented ends in `P_IDLE`, where the base is all there is; the sequencer keeps every part. -/
theorem stepKeepsInvariant : Obligations.StepKeepsInvariant := by
  intro s t hinv hstep
  rcases step_next_cases hstep with ⟨w, s', i, hf, hd, he⟩ | ⟨-, hbusy, hs⟩ | ⟨-, -, rfl⟩
  · exact exec_inv hinv hf hd he
  · exact sequencerStep_inv hinv hbusy hs
  · exact hinv

/-! ### the bound of CNT -/

/-- Under a legal configuration no phase of a transfer is loaded with more than the bound of R25. -/
theorem cntLoad_le_cntBound {p : Phase} {s : State} (hlegal : s.cfg.legal s.params) (hvalid : s.cfg.valid = true)
    (hp : p.ofTransfer = true) : cntLoad p s ≤ cntBound s.params := by
  obtain ⟨-, hturn, hidle⟩ := hlegal hvalid
  unfold cntBound
  cases p with
  | idle | seqOut | seqIn => cases hp
  | req | ack | rdata | rpar | wdata | wpar | dummyRd | dummyWr => simp only [cntLoad]; omega
  | trn1 | trn2Rd | trn2Wr | trn2Err | idlecyc | backoff => simp only [cntLoad]; omega

/-- Settles O56: `CNT` is at most the load of its phase, or the bits left of a sequence. -/
theorem countStaysWithinBound : Obligations.CountStaysWithinBound := by
  intro s hinv hbusy
  refine ⟨hinv.cntPos hbusy, ?_⟩
  have htransfer : s.phase.ofTransfer = true → s.cnt ≤ cntBound s.params := fun hp =>
    have ⟨hvalid, hcnt⟩ := hinv.transferCfg hp
    Nat.le_trans hcnt (cntLoad_le_cntBound hinv.cfgLegal hvalid hp)
  cases hp : s.phase with
  | idle => exact absurd hp (busy_true_iff.mp hbusy)
  | seqOut => have := hinv.seqOutCnt hp; unfold cntBound; omega
  | seqIn => have := hinv.seqInCnt hp; unfold cntBound; omega
  | req | trn1 | ack | rdata | rpar | trn2Rd | trn2Wr | wdata | wpar | idlecyc | dummyRd | trn2Err | dummyWr | backoff =>
    exact htransfer (by rw [hp]; rfl)

end Sys2Proof.Machine
end

section
/-! PROOFS. The records only grow (00_scope.md R12, 20_memory.md R58). -/

namespace Sys2Proof.Machine

/-- The two records of `s` are beginnings of those of `t`, and the parameters are the same. -/
structure RecordsExtend (s t : State) : Prop where
  trace : s.trace <+: t.trace
  accesses : s.accesses <+: t.accesses
  params : t.params = s.params

theorem RecordsExtend.refl (s : State) : RecordsExtend s s := ⟨List.prefix_rfl, List.prefix_rfl, rfl⟩

/-- More pin events, and the same accesses and parameters, still extend. -/
theorem RecordsExtend.addEvents {s t t' : State} {evs : List PinEvent} (h : RecordsExtend s t) (ht : t'.trace = t.trace ++ evs)
    (ha : t'.accesses = t.accesses) (hp : t'.params = t.params) : RecordsExtend s t' where
  trace := ht ▸ h.trace.trans (List.prefix_append ..)
  accesses := ha ▸ h.accesses
  params := hp.trans h.params

theorem recordsExtend_kept (s₀ : State) : KeptByOperations (RecordsExtend s₀) where
  mapWork_kept _ _ h := { h with }
  writeBit_kept b h := h.addEvents (writeBit_trace b _) rfl rfl
  readBit_kept h := h.addEvents (readBit_trace _) rfl rfl
  clockCycle_kept h := h.addEvents (clockCycle_trace _) rfl rfl
  setPhase_kept _ h := { h with }
  setDio_kept b h := h.addEvents (setDio_trace b _) rfl rfl
  setDir_kept way h := h.addEvents (setDir_trace way _) (setDir_accesses way _) (setDir_params way _)
  setReq_kept _ h := { h with }
  setCnt_kept _ h := { h with }
  finish_kept _ h := { h with }
  returned_kept _ h := { h with }

theorem RecordsExtend.memReadSrc {s t : State} (k : Nat) (h : RecordsExtend s t) : RecordsExtend s (memReadSrc k t).2 :=
  { h with accesses := h.accesses.trans (List.prefix_append ..) }

theorem RecordsExtend.memWriteDst {s t : State} (k : Nat) (v : Byte) (h : RecordsExtend s t) :
    RecordsExtend s (memWriteDst k v t) :=
  { h with accesses := h.accesses.trans (List.prefix_append ..) }

/-- Fetching records nothing. -/
theorem fetch_recordsExtend {s s' : State} {w : CodeWord} (hf : fetch s = some (w, s')) : RecordsExtend s s' := by
  rcases fetch_cases hf with ⟨-, -, rfl⟩ | ⟨-, c, rest, -, -, rfl⟩
  · exact { RecordsExtend.refl s with }
  · exact { RecordsExtend.refl s with }

/-- Settles O49: every primitive adds at the end of a record or leaves it. -/
theorem recordsOnlyGrow : Obligations.RecordsOnlyGrow := by
  intro s t hstep
  have ⟨htrace, haccesses, hparams⟩ : RecordsExtend s t := by
    rcases step_next_cases hstep with ⟨w, s', i, hf, -, he⟩ | ⟨-, -, hs⟩ | ⟨-, -, rfl⟩
    · exact (recordsExtend_kept s).exec_kept .memReadSrc (fun _ => .memWriteDst) (fun _ _ _ h => { h with })
        (fetch_recordsExtend hf) he
    · exact (recordsExtend_kept s).sequencerStep_kept .memReadSrc (fun _ => .memWriteDst) (.refl s) hs
    · exact .refl t
  exact ⟨htrace, haccesses, hparams⟩

end Sys2Proof.Machine
end

section
/-! PROOFS. The output sequence in closed form (41_sequence.md R110): the state after any number of turns of its loop, whatever SRC
supplies. -/

namespace Sys2Proof.Machine

theorem repeatN_succ_last (n : Nat) (f : State → State) (s : State) : repeatN (n + 1) f s = f (repeatN n f s) :=
  repeatN_add n 1 f s

theorem seqBits_succ (bytes : Nat → Byte) (n : Nat) : seqBits bytes (n + 1) = seqBits bytes n ++ [seqBit bytes n] := by
  simp [seqBits, List.range_succ]

/-- A turn that begins a byte needs one byte more. -/
theorem ceil8_succ_of_mod_eq_zero {i : Nat} (h : i % 8 = 0) : ceil8 (i + 1) = ceil8 i + 1 := by unfold ceil8; omega

theorem ceil8_succ_of_mod_ne_zero {i : Nat} (h : i % 8 ≠ 0) : ceil8 (i + 1) = ceil8 i := by unfold ceil8; omega

/-- The draw counter when an output sequence started in `s` loads byte `j`: a byte that SRC lacks draws a free value (log 10). -/
def drawsBefore (s : State) : Nat → Nat
  | 0 => s.draws
  | j + 1 => if (s.src.read j).isSome then drawsBefore s j else drawsBefore s j + 1

/-- Byte `j` as an output sequence started in `s` loads it. -/
def loadedByte (s : State) (j : Nat) : Byte := (s.src.read j).getD (Config.freeSrcByte (drawsBefore s j))

theorem loadedByte_of_read {s : State} {j : Nat} {v : Byte} (h : s.src.read j = some v) : loadedByte s j = v := by
  simp [loadedByte, h]

theorem drawsBefore_congr {s t : State} (hsrc : t.src = s.src) (hdraws : t.draws = s.draws) (j : Nat) :
    drawsBefore t j = drawsBefore s j := by
  induction j with
  | zero => exact hdraws
  | succ j ih => simp [drawsBefore, hsrc, ih]

theorem loadedByte_congr {s t : State} (hsrc : t.src = s.src) (hdraws : t.draws = s.draws) (j : Nat) :
    loadedByte t j = loadedByte s j := by
  simp [loadedByte, hsrc, drawsBefore_congr hsrc hdraws]

/-- The state after `i` turns of the output loop from `s`: `i` bits sent, `ceil8 i` bytes read, and what is left of the last one in
`BYTE`. -/
def afterOutput (s : State) (i : Nat) : State :=
  { s with
    pins := { s.pins with clk := if i = 0 then s.pins.clk else true
                          dioO := if i = 0 then s.pins.dioO else seqBit (loadedByte s) (i - 1) }
    trace := s.trace ++ (seqBits (loadedByte s) i).flatMap writeEvents
    accesses := s.accesses ++ (List.range (ceil8 i)).map fun j => .read j (s.trace.length + 24 * j)
    draws := drawsBefore s (ceil8 i)
    work := { s.work with byte := if i = 0 then s.work.byte else loadedByte s ((i - 1) / 8) >>> ((i - 1) % 8 + 1)
                          k := 8 * ceil8 i - i
                          bidx := ceil8 i
                          nbits := s.work.nbits - i } }

@[simp] theorem length_writeEvents (b : Bit) : (writeEvents b).length = 3 := rfl

@[simp] theorem length_seqBits (bytes : Nat → Byte) (n : Nat) : (seqBits bytes n).length = n := by simp [seqBits]

/-- `BYTE`, its index and `K` once a byte is loaded where one is due. -/
theorem loadByte_afterOutput (s : State) (i : Nat) :
    loadByte (afterOutput s i) =
      { afterOutput s i with
        accesses := s.accesses ++ (List.range (ceil8 (i + 1))).map fun j => .read j (s.trace.length + 24 * j)
        draws := drawsBefore s (ceil8 (i + 1))
        work := { s.work with byte := loadedByte s (i / 8) >>> (i % 8)
                              k := 8 * ceil8 (i + 1) - i
                              bidx := ceil8 (i + 1)
                              nbits := s.work.nbits - i } } := by
  by_cases hi : i % 8 = 0
  · have hc : ceil8 i = i / 8 := by unfold ceil8; omega
    have hk : (afterOutput s i).work.k = 0 := show 8 * ceil8 i - i = 0 by omega
    have h3 : i * 3 = 24 * (i / 8) := by omega
    have h8 : 8 * (i / 8 + 1) - i = 8 := by omega
    simp only [loadByte, hk, memReadSrc, srcByte, ceil8_succ_of_mod_eq_zero hi, if_true]
    simp [afterOutput, hc, hi, h3, h8, drawsBefore, loadedByte, List.range_succ]
  · have hk : (afterOutput s i).work.k ≠ 0 := show 8 * ceil8 i - i ≠ 0 by unfold ceil8; omega
    have h0 : i ≠ 0 := by omega
    have hdiv : (i - 1) / 8 = i / 8 := by omega
    have hmod : (i - 1) % 8 + 1 = i % 8 := by omega
    simp only [loadByte, hk, if_false, ceil8_succ_of_mod_ne_zero hi]
    simp [afterOutput, h0, hdiv, hmod]

/-- One turn of the loop sends one bit more. -/
theorem outBit_afterOutput (s : State) (i : Nat) : outBit (afterOutput s i) = afterOutput s (i + 1) := by
  have hbit : (loadedByte s (i / 8) >>> (i % 8)).getLsbD 0 = seqBit (loadedByte s) i := by simp [seqBit]
  have hk : 8 * ceil8 (i + 1) - i - 1 = 8 * ceil8 (i + 1) - (i + 1) := by omega
  simp only [outBit, loadByte_afterOutput, hbit]
  simp [afterOutput, writeBit, setDio, setClk, writeEvents, seqBits_succ, ← BitVec.shiftRight_add, hk, Nat.sub_sub]

theorem afterOutput_zero {s : State} (hk : s.work.k = 0) (hbidx : s.work.bidx = 0) : afterOutput s 0 = s := by
  rcases s with ⟨_, _, _, _, ⟨⟩, _⟩
  subst hk hbidx
  simp [afterOutput, seqBits, ceil8, drawsBefore]

/-- The output loop from a state in which no byte is begun. -/
theorem repeatN_outBit {s : State} (hk : s.work.k = 0) (hbidx : s.work.bidx = 0) (n : Nat) :
    repeatN n outBit s = afterOutput s n := by
  induction n with
  | zero => exact (afterOutput_zero hk hbidx).symm
  | succ n ih => rw [repeatN_succ_last, ih, outBit_afterOutput]

/-- `GEN_SEQ` and `XCHG_SEQ.OUT` once accepted (R110, R111). -/
theorem sequenceOut_eq (n : Nat) (s : State) :
    sequenceOut n s = finish .nothing (afterOutput (beginSeq .seqOut .host n s) n) := by
  rw [sequenceOut, repeatN_outBit rfl rfl]

theorem loadedByte_beginSeq (p : Phase) (way : Dir) (n : Nat) (s : State) :
    loadedByte (beginSeq p way n s) = loadedByte s :=
  funext (loadedByte_congr (setDir_src ..) (setDir_draws ..))

@[simp] theorem beginSeq_trace (p : Phase) (way : Dir) (n : Nat) (s : State) :
    (beginSeq p way n s).trace = s.trace ++ dirEvents s.params way :=
  setDir_trace way _

@[simp] theorem beginSeq_pins (p : Phase) (way : Dir) (n : Nat) (s : State) :
    (beginSeq p way n s).pins = { s.pins with dioDir := dirAfter s way } :=
  setDir_pins way _

@[simp] theorem beginSeq_accesses (p : Phase) (way : Dir) (n : Nat) (s : State) :
    (beginSeq p way n s).accesses = s.accesses :=
  setDir_accesses way _

theorem sequenceOut_trace (n : Nat) (s : State) :
    (sequenceOut n s).trace = s.trace ++ dirEvents s.params .host ++ (seqBits (loadedByte s) n).flatMap writeEvents := by
  simp [sequenceOut_eq, afterOutput, loadedByte_beginSeq]

theorem sequenceOut_pins (n : Nat) (s : State) :
    (sequenceOut n s).pins =
      { clk := if n = 0 then s.pins.clk else true
        dioO := if n = 0 then s.pins.dioO else seqBit (loadedByte s) (n - 1)
        dioDir := dirAfter s .host } := by
  simp [sequenceOut_eq, afterOutput, loadedByte_beginSeq]

theorem sequenceOut_accesses (n : Nat) (s : State) :
    (sequenceOut n s).accesses = s.accesses ++ (List.range (ceil8 n)).map fun j =>
      .read j ((s.trace ++ dirEvents s.params .host).length + 24 * j) := by
  simp [sequenceOut_eq, afterOutput]

/-- An output sequence takes no sample. -/
theorem sequenceOut_samples (n : Nat) (s : State) :
    (sequenceOut n s).samples = s.samples ∧ (sequenceOut n s).script = s.script := by
  rw [sequenceOut_eq]
  exact ⟨setDir_samples .host _, setDir_script .host _⟩

end Sys2Proof.Machine
end

section
/-! PROOFS. An output sequence reads each byte of SRC once and uses the bits of the sequence only (20_memory.md R51). -/

namespace Sys2Proof.Machine

/-- The operands under which `exec` runs an output sequence of `n` bits (R78, R81, R110, R111). -/
def OutputOf (i : Instr) (n : Nat) (s : State) : Prop :=
  (∃ c, i = .genSeq c ∧ c.toNat = n ∧ n ≤ s.params.genMax) ∨
  (∃ info, i = .xchgSeqOut info ∧ i.wf = true ∧ i.legal s.params = true ∧ xchgCount s.params info = n)

theorem exec_output {i : Instr} {n : Nat} {s : State} (hidle : s.busy = false) (hi : OutputOf i n s) :
    exec i s = .next (sequenceOut n s) := by
  rcases hi with ⟨c, rfl, rfl, hn⟩ | ⟨info, rfl, hwf, hlegal, rfl⟩
  · exact execGenSeq_next.mpr ⟨hidle, hn, rfl⟩
  · have hdir : info.getLsbD 7 = false := by simp [Instr.wf] at hwf; exact hwf.1
    exact execXchgSeqOut_next.mpr ⟨hidle, (infoReserved_eq_false _ _).mpr hlegal, hdir, rfl⟩

/-- Buffers that agree on the first `n` bits load those bits. -/
theorem seqBit_loadedByte_congr {s t : State} {n : Nat}
    (h : ∀ j, j < ceil8 n → ∃ a b, s.src.read j = some a ∧ t.src.read j = some b ∧
      ∀ m, m < 8 → 8 * j + m < n → a.getLsbD m = b.getLsbD m) {i : Nat} (hi : i < n) :
    seqBit (loadedByte t) i = seqBit (loadedByte s) i := by
  obtain ⟨a, b, ha, hb, hab⟩ := h (i / 8) (by unfold ceil8; omega)
  rw [seqBit, seqBit, loadedByte_of_read ha, loadedByte_of_read hb, hab (i % 8) (by omega) (by omega)]

theorem seqBits_congr {f g : Nat → Byte} {n : Nat} (h : ∀ i, i < n → seqBit f i = seqBit g i) : seqBits f n = seqBits g n :=
  List.map_congr_left fun i hi => h i (List.mem_range.mp hi)

/-- Settles O19: the closed form of the output loop gives the reads and the events, and the events and pins depend on the bits of
the sequence only. -/
theorem outputReadsEachByteOnce : Obligations.OutputReadsEachByteOnce := by
  refine ⟨fun k v s h => ⟨by simp [memReadSrc, srcByte, h], rfl⟩, fun i n s hidle hi => ?_⟩
  have hrun := exec_output hidle hi
  have ⟨hsrc, hdst⟩ := exec_buffers hrun
  have hout : ¬ ∃ o, i = .xchgSeqIn o := by
    rintro ⟨o, rfl⟩
    rcases hi with ⟨c, hc, -⟩ | ⟨info, hinfo, -⟩
    · cases hc
    · cases hinfo
  have ⟨hsamples, hscript⟩ := sequenceOut_samples n s
  refine ⟨_, hrun, sequenceOut_accesses n s, hsrc, hdst hout, hsamples, hscript, ?_, fun src' hsrc' => ?_⟩
  · simp [sequenceOut_trace]
  · have hbit {i : Nat} := seqBit_loadedByte_congr (t := { s with src := src' }) hsrc' (i := i)
    refine ⟨_, exec_output (s := { s with src := src' }) hidle hi, ?_, ?_⟩
    · rw [sequenceOut_trace, sequenceOut_trace, seqBits_congr fun i => hbit]
    · rw [sequenceOut_pins, sequenceOut_pins]
      have hdir : dirAfter { s with src := src' } .host = dirAfter s .host := rfl
      by_cases hn : n = 0
      · simp [hn, hdir]
      · simp [hn, hdir, hbit (show n - 1 < n by omega)]

end Sys2Proof.Machine
end

section
/-! PROOFS. A word sent from SRC and the data phase of a write give the wire the same bits (20_memory.md R54). -/

namespace Sys2Proof.Machine

/-- The data phase from bit `i` on writes the bits of `DATA` in order (R140). -/
theorem forUp_writeDataBit_trace (n i : Nat) (s : State) :
    (forUp writeDataBit n i s).trace = s.trace ++ ((List.range' i n).map s.work.data.getLsbD).flatMap writeEvents := by
  induction n generalizing i s with
  | zero => simp
  | succ n ih => simp [forUp_succ, ih, writeDataBit, writeBitPar, List.range'_succ]

theorem writeData_trace (s : State) : (writeData s).trace = s.trace ++ (bitsOf s.work.data).flatMap writeEvents := by
  simp [writeData, forUp_writeDataBit_trace, bitsOf, List.range_eq_range', Config.dataBits]

/-- What `WRITE_BIT`s drive is what they write. -/
theorem drivenBits_writes (bs : List Bit) : drivenBits (bs.flatMap writeEvents) = bs := by
  induction bs with
  | nil => rfl
  | cons b bs ih => exact congrArg (b :: ·) ih

/-- A count field that leaves bit 5 free of the reserved bits spells 32. -/
theorem xchgCount_thirtyTwo {p : Config.Params} (h : (Instr.xchgSeqOut 32).legal p = true) : xchgCount p 32 = 32 := by
  have key : ∀ w : Fin 7, (32#8).setWidth 7 >>> w.val = 0 → w = 6 := by decide
  have hwidth := key p.xchgCountBits (by simpa [Instr.legal] using h)
  simp [xchgCount, clkField_eq, hwidth]

/-- The bytes of a word, least significant first, hold its bits in order. -/
theorem seqBits_of_word {bytes : Nat → Byte} {w : Word} (h : ∀ j, j < 4 → bytes j = w.extractLsb' (8 * j) 8) :
    seqBits bytes 32 = bitsOf w := by
  refine List.map_congr_left fun i hi => ?_
  have hi : i < 32 := List.mem_range.mp hi
  have hpos : 8 * (i / 8) + i % 8 = i := Nat.div_add_mod i 8
  simp [seqBit, h (i / 8) (by omega), hpos, Nat.mod_lt]

/-- Settles O24: both append the `WRITE_BIT`s of the bits of the word. -/
theorem mixedViewsAgree : Obligations.MixedViewsAgree := by
  intro i w s u hidle hi hsrc hdata
  have hout : OutputOf i 32 s := by
    rcases hi with ⟨rfl, hmax⟩ | ⟨rfl, hlegal⟩
    · exact .inl ⟨32, rfl, rfl, hmax⟩
    · exact .inr ⟨32, rfl, by decide, hlegal, xchgCount_thirtyTwo hlegal⟩
  have hbits : seqBits (loadedByte s) 32 = bitsOf w := seqBits_of_word fun j hj => loadedByte_of_read (hsrc j hj)
  refine ⟨_, (bitsOf w).flatMap writeEvents, exec_output hidle hout, ?_, ?_, drivenBits_writes _⟩
  · rw [sequenceOut_trace, hbits]
  · rw [writeData_trace, hdata]

end Sys2Proof.Machine
end

section
/-! PROOFS. The capture in closed form (41_sequence.md R112): the state after any number of turns of its loop. -/

namespace Sys2Proof.Machine

/-! ### a byte that is being captured -/

/-- `BYTE` once `m` samples of byte `j` of a capture started in `s` are shifted in. -/
def shiftedByte (s : State) (j : Nat) : Nat → Byte
  | 0 => 0
  | m + 1 => shiftIn (shiftedByte s j m) (sampleAt s (8 * j + m))

theorem shiftIn_getLsbD (byte : Byte) (b : Bit) {p : Nat} (hp : p < 8) :
    (shiftIn byte b).getLsbD p = if p = 7 then b else byte.getLsbD (p + 1) := by
  rw [shiftIn, BitVec.getLsbD_or, BitVec.getLsbD_ushiftRight, BitVec.getLsbD_shiftLeft, BitVec.getLsbD_setWidth,
    BitVec.getLsbD_ofBool, Nat.add_comm 1 p]
  by_cases h7 : p = 7
  · simp [h7]
  · simp [h7, show p < 7 by omega]

/-- The samples stand at the high end, the last one highest, with zeros below. -/
theorem shiftedByte_getLsbD (s : State) (j : Nat) {m p : Nat} (hm : m ≤ 8) (hp : p < 8) :
    (shiftedByte s j m).getLsbD p = (decide (8 ≤ p + m) && sampleAt s (8 * j + (p + m - 8))) := by
  induction m generalizing p with
  | zero => simp [shiftedByte, show ¬ 8 ≤ p by omega]
  | succ m ih =>
    rw [shiftedByte, shiftIn_getLsbD _ _ hp]
    split
    · next h7 => subst h7; simp [show 7 + (m + 1) - 8 = m by omega, show 8 ≤ 7 + (m + 1) by omega]
    · next h7 => rw [ih (by omega) (by omega), show p + 1 + m = p + (m + 1) by omega]

theorem capturedByte_getLsbD (s : State) (n j : Nat) {m : Nat} (hm : m < 8) :
    (capturedByte s n j).getLsbD m = capturedBit s n (8 * j + m) := by
  have hconcat {w : Nat} (v : BitVec w) (b : Bit) : v ++ BitVec.ofBool b = v.concat b := rfl
  simp only [capturedByte, hconcat, BitVec.getLsbD_concat, BitVec.getLsbD_ofBool]
  interval_cases m <;> simp

/-- `BYTE >> K` after the last sample of a byte is the captured byte, right-aligned (R55). -/
theorem shiftedByte_ushiftRight {s : State} {n j m : Nat} (hm : m ≤ 8) (hlast : m = 8 ∧ 8 * j + m ≤ n ∨ 8 * j + m = n) :
    shiftedByte s j m >>> (8 - m) = capturedByte s n j := by
  apply BitVec.eq_of_getLsbD_eq
  intro p hp
  rw [BitVec.getLsbD_ushiftRight, capturedByte_getLsbD s n j hp, capturedBit]
  by_cases hpm : p < m
  · rw [shiftedByte_getLsbD s j hm (by omega)]
    simp [show 8 ≤ 8 - m + p + m by omega, show 8 - m + p + m - 8 = p by omega, show 8 * j + p < n by omega]
  · rw [BitVec.getLsbD_of_ge _ _ (by omega)]
    simp [show ¬ 8 * j + p < n by omega]

/-! ### the loop -/

/-- How many bytes are stored after `i` of the `n` turns: the complete ones, and after the last turn the partial one too. -/
def storedBytes (n i : Nat) : Nat := if i = n then ceil8 n else i / 8

/-- DST once the first `j` bytes of a capture of `n` bits started in `s` are stored. -/
def dstAfter (s : State) (n : Nat) : Nat → Memory
  | 0 => s.dst
  | j + 1 => (dstAfter s n j).write j (capturedByte s n j)

/-- The state `i` turns into a capture of `n` bits started in `s`, with `stored` bytes in DST, `byte` in `BYTE` and `k` in
`K`. -/
def captureState (s : State) (n i stored : Nat) (byte : Byte) (k : Nat) : State :=
  { s with
    pins := { s.pins with clk := if i = 0 then s.pins.clk else true }
    trace := s.trace ++ (samplesFrom s i).flatMap readEvents
    accesses := s.accesses ++ (List.range stored).map fun j =>
      .write j (capturedByte s n j) (s.trace.length + 3 * min (8 * (j + 1)) n)
    script := s.script.drop i
    samples := s.samples + i
    dst := dstAfter s n stored
    work := { s.work with byte := byte, k := k, bidx := stored, nbits := n - i } }

@[simp] theorem length_readEvents (b : Bit) : (readEvents b).length = 3 := rfl

@[simp] theorem length_samplesFrom (s : State) (n : Nat) : (samplesFrom s n).length = n := by simp [samplesFrom]

theorem samplesFrom_succ (s : State) (i : Nat) : samplesFrom s (i + 1) = samplesFrom s i ++ [sampleAt s i] := by
  simp [samplesFrom, List.range_succ]

theorem captureState_zero {s : State} (hk : s.work.k = 0) (hbidx : s.work.bidx = 0) :
    captureState s s.work.nbits 0 0 s.work.byte 0 = s := by
  rcases s with ⟨_, _, _, _, ⟨⟩, _⟩
  subst hk hbidx
  simp [captureState, samplesFrom, dstAfter]

/-- A byte is begun when none is in progress. -/
theorem clearByte_captureState (s : State) (n i stored : Nat) (byte : Byte) (k : Nat) :
    clearByte (captureState s n i stored byte k) =
      captureState s n i stored (if k = 0 then 0 else byte) (if k = 0 then 8 else k) := by
  by_cases hk : k = 0 <;> simp [clearByte, captureState, hk]

/-- The sample of turn `i` is shifted in. -/
theorem captureBit_captureState (s : State) (n i stored : Nat) (byte : Byte) (k : Nat) :
    captureBit (captureState s n i stored byte k) =
      captureState s n (i + 1) stored (shiftIn byte (sampleAt s i)) (k - 1) := by
  have hnext (t : State) (hscript : t.script = s.script.drop i) (hsamples : t.samples = s.samples + i) :
      nextSample t = sampleAt s i := by
    simp [nextSample_eq_sampleAt, sampleAt, hscript, hsamples]
  simp [captureBit, captureState, readBit, sampleLine, setClk, hnext, readEvents, samplesFrom_succ, Nat.sub_sub, Nat.add_assoc]

/-- Within a byte nothing is stored. -/
theorem storeByte_captureState_within {s : State} {n i stored k : Nat} {byte : Byte} (hk : k ≠ 0) (hi : i < n) :
    storeByte (captureState s n i stored byte k) = captureState s n i stored byte k :=
  if_neg (by simp [captureState, hk]; omega)

/-- A byte is stored after its last sample. -/
theorem storeByte_captureState {s : State} {n i stored k : Nat} {byte : Byte} (hlast : k = 0 ∨ i = n)
    (hbyte : byte >>> k = capturedByte s n stored) (hi : i = min (8 * (stored + 1)) n) :
    storeByte (captureState s n i stored byte k) = captureState s n i (stored + 1) (capturedByte s n stored) k := by
  have hstore : (captureState s n i stored byte k).work.k = 0 ∨ (captureState s n i stored byte k).work.nbits = 0 :=
    hlast.imp id fun h => show n - i = 0 by omega
  simp only [storeByte, hstore, if_true]
  have hevents : i * 3 = 3 * min (8 * (stored + 1)) n := by omega
  simp [captureState, memWriteDst, dstAfter, hbyte, List.range_succ, hevents]

/-- One turn of the loop, in a byte whose samples so far are shifted in. -/
theorem inBit_captureState {s : State} {n i : Nat} {byte : Byte} (hi : i < n)
    (hbyte : i % 8 ≠ 0 → byte = shiftedByte s (i / 8) (i % 8)) :
    ∃ byte', inBit (captureState s n i (i / 8) byte (8 * ceil8 i - i)) =
        captureState s n (i + 1) (storedBytes n (i + 1)) byte' (8 * ceil8 (i + 1) - (i + 1)) ∧
      (i + 1 < n → (i + 1) % 8 ≠ 0 → byte' = shiftedByte s ((i + 1) / 8) ((i + 1) % 8)) := by
  have hclear : (if 8 * ceil8 i - i = 0 then 0 else byte) = shiftedByte s (i / 8) (i % 8) := by
    by_cases hmod : i % 8 = 0
    · rw [if_pos (by unfold ceil8; omega), hmod]; rfl
    · rw [if_neg (by unfold ceil8; omega), hbyte hmod]
  have hk : (if 8 * ceil8 i - i = 0 then 8 else 8 * ceil8 i - i) - 1 = 8 * ceil8 (i + 1) - (i + 1) := by
    unfold ceil8; split <;> omega
  have hshift : shiftIn (shiftedByte s (i / 8) (i % 8)) (sampleAt s i) = shiftedByte s (i / 8) (i % 8 + 1) := by
    rw [shiftedByte, Nat.div_add_mod]
  rw [inBit, clearByte_captureState, captureBit_captureState, hclear, hk, hshift]
  by_cases hlast : (i + 1) % 8 = 0 ∨ i + 1 = n
  · have hright : shiftedByte s (i / 8) (i % 8 + 1) >>> (8 * ceil8 (i + 1) - (i + 1)) = capturedByte s n (i / 8) := by
      rw [show 8 * ceil8 (i + 1) - (i + 1) = 8 - (i % 8 + 1) by unfold ceil8; omega]
      exact shiftedByte_ushiftRight (by omega) (by omega)
    have hstored : storedBytes n (i + 1) = i / 8 + 1 := by unfold storedBytes ceil8; split <;> omega
    rw [storeByte_captureState (by unfold ceil8; omega) hright (by omega), hstored]
    exact ⟨_, rfl, fun _ _ => by omega⟩
  · have hstored : storedBytes n (i + 1) = i / 8 := by unfold storedBytes; rw [if_neg (by omega)]; omega
    rw [storeByte_captureState_within (by unfold ceil8; omega) (by omega), hstored]
    exact ⟨_, rfl, fun _ _ => by rw [show (i + 1) / 8 = i / 8 by omega, show (i + 1) % 8 = i % 8 + 1 by omega]⟩

/-- The capture loop from a state in which no byte is begun. -/
theorem repeatN_inBit {s : State} {n i : Nat} (hk : s.work.k = 0) (hbidx : s.work.bidx = 0) (hnbits : s.work.nbits = n)
    (hi : i ≤ n) :
    ∃ byte, repeatN i inBit s = captureState s n i (storedBytes n i) byte (8 * ceil8 i - i) ∧
      (i < n → i % 8 ≠ 0 → byte = shiftedByte s (i / 8) (i % 8)) := by
  induction i with
  | zero =>
    have hstored : storedBytes n 0 = 0 := by unfold storedBytes ceil8; split <;> omega
    exact ⟨s.work.byte, by rw [hstored, ← hnbits]; exact (captureState_zero hk hbidx).symm, fun _ h => absurd rfl h⟩
  | succ i ih =>
    obtain ⟨byte, hturns, hbyte⟩ := ih (by omega)
    have hstored : storedBytes n i = i / 8 := if_neg (by omega)
    rw [repeatN_succ_last, hturns, hstored]
    exact inBit_captureState hi (hbyte hi)

/-- `XCHG_SEQ.IN` once accepted (R112): what it leaves in `BYTE` the end of the operation discards. -/
theorem sequenceIn_eq (n : Nat) (s : State) :
    ∃ byte, sequenceIn n s =
      finish (.captured (ceil8 n)) (captureState (beginSeq .seqIn .target n s) n n (ceil8 n) byte (8 * ceil8 n - n)) := by
  obtain ⟨byte, hturns, -⟩ := repeatN_inBit (s := beginSeq .seqIn .target n s) (n := n) rfl rfl rfl (Nat.le_refl n)
  have hstored : storedBytes n n = ceil8 n := if_pos rfl
  exact ⟨byte, by rw [sequenceIn, hturns, hstored]; rfl⟩

end Sys2Proof.Machine
end

section
/-! PROOFS. A capture writes each byte of DST once, the last one right-aligned, and nothing reads DST (20_memory.md R52, R55). -/

namespace Sys2Proof.Machine

/-! ### the bytes written -/

theorem capturedByte_congr {s t : State} (hscript : t.script = s.script) (hsamples : t.samples = s.samples) (n j : Nat) :
    capturedByte t n j = capturedByte s n j := by
  simp [capturedByte, capturedBit, sampleAt_congr hscript hsamples]

theorem capturedByte_beginSeq (p : Phase) (way : Dir) (m n j : Nat) (s : State) :
    capturedByte (beginSeq p way m s) n j = capturedByte s n j :=
  capturedByte_congr (setDir_script ..) (setDir_samples ..) n j

theorem read_dstAfter (s : State) (n stored j : Nat) :
    (dstAfter s n stored).read j = if j < stored then some (capturedByte s n j) else s.dst.read j := by
  induction stored with
  | zero => simp [dstAfter]
  | succ k ih =>
    rw [dstAfter]
    by_cases hj : j = k
    · subst hj; simp
    · rw [Memory.read_write_other _ _ hj, ih]
      simp [show j < k + 1 ↔ j < k by omega]

/-- A capture of `n` bits writes bytes 0 to `ceil8 n - 1` of DST (R112). -/
theorem sequenceIn_dst_read (n : Nat) (s : State) (j : Nat) :
    (sequenceIn n s).dst.read j = if j < ceil8 n then some (capturedByte s n j) else s.dst.read j := by
  obtain ⟨byte, hrun⟩ := sequenceIn_eq n s
  have hdst : (beginSeq .seqIn .target n s).dst = s.dst := setDir_dst ..
  simp [hrun, captureState, read_dstAfter, capturedByte_beginSeq, hdst]

theorem sequenceIn_accesses (n : Nat) (s : State) :
    (sequenceIn n s).accesses = s.accesses ++ (List.range (ceil8 n)).map fun j =>
      .write j (capturedByte s n j) ((s.trace ++ dirEvents s.params .target).length + 3 * min (8 * (j + 1)) n) := by
  obtain ⟨byte, hrun⟩ := sequenceIn_eq n s
  simp [hrun, captureState, capturedByte_beginSeq]

theorem exec_xchgSeqIn {info : BitVec 8} {s : State} (hidle : s.busy = false) (hwf : (Instr.xchgSeqIn info).wf = true)
    (hlegal : (Instr.xchgSeqIn info).legal s.params = true) :
    exec (.xchgSeqIn info) s = .next (sequenceIn (xchgCount s.params info) s) := by
  have hdir : info.getLsbD 7 = true := by simp [Instr.wf] at hwf; exact hwf.1
  exact execXchgSeqIn_next.mpr ⟨hidle, (infoReserved_eq_false _ _).mpr hlegal, hdir, rfl⟩

theorem memWriteDst_dst_read (k j : Nat) (v : Byte) (s : State) :
    (memWriteDst k v s).dst.read j = if j = k then some v else s.dst.read j := by
  by_cases h : j = k
  · simp [h]
  · simp [h, Memory.read_write_other]

/-! ### no operation reads DST -/

/-- `u` is `s` with some other DST. -/
def SameButDst (s u : State) : Prop := ∃ m : Memory, u = { s with dst := m }

theorem setDir_withDst (way : Dir) (m : Memory) (s : State) :
    setDir way { s with dst := m } = { setDir way s with dst := m } := by
  cases hd : s.params.hasDir <;> simp [setDir, hd]

/-- Every primitive leaves DST alone or writes one byte of it, and reads none. -/
theorem sameButDst_opSimulation : OpSimulation SameButDst where
  phase_eq := by rintro _ _ ⟨_, rfl⟩; rfl
  cfg_eq := by rintro _ _ ⟨_, rfl⟩; rfl
  work_eq := by rintro _ _ ⟨_, rfl⟩; rfl
  params_eq := by rintro _ _ ⟨_, rfl⟩; exact ⟨_, rfl⟩
  nextSample_eq := by rintro _ _ ⟨_, rfl⟩; rfl
  srcByte_eq := by rintro _ _ _ ⟨_, rfl⟩; rfl
  mapWork_rel := by rintro _ _ _ ⟨m, rfl⟩; exact ⟨m, rfl⟩
  setPhase_rel := by rintro _ _ _ ⟨m, rfl⟩; exact ⟨m, rfl⟩
  setDir_rel := by rintro _ _ way ⟨m, rfl⟩; exact ⟨m, setDir_withDst way m _⟩
  setDio_rel := by rintro _ _ _ ⟨m, rfl⟩; exact ⟨m, rfl⟩
  writeBit_rel := by rintro _ _ _ ⟨m, rfl⟩; exact ⟨m, rfl⟩
  readBit_rel := by rintro _ _ ⟨m, rfl⟩; exact ⟨m, rfl⟩
  clockCycle_rel := by rintro _ _ ⟨m, rfl⟩; exact ⟨m, rfl⟩
  memReadSrc_rel := by rintro _ _ _ ⟨m, rfl⟩; exact ⟨m, rfl⟩
  memWriteDst_rel := by rintro _ _ k v ⟨m, rfl⟩; exact ⟨m.write k v, rfl⟩
  finish_rel := by rintro _ _ _ ⟨m, rfl⟩; exact ⟨m, rfl⟩
  returned_rel := by rintro _ _ _ ⟨m, rfl⟩; exact ⟨m, rfl⟩
  setCfg_rel := by rintro _ _ _ ⟨m, rfl⟩; exact ⟨m, rfl⟩

/-- Settles O21: the closed form of the capture loop gives the writes, and `SameButDst` is a simulation. -/
theorem captureWritesEachByteOnce : Obligations.CaptureWritesEachByteOnce := by
  refine ⟨memWriteDst_dst_read, fun info s hidle hwf hlegal => ?_, fun i s t m he => ?_⟩
  · refine ⟨_, exec_xchgSeqIn hidle hwf hlegal, sequenceIn_accesses _ s, fun j hj => ?_⟩
    rw [sequenceIn_dst_read, if_neg (Nat.not_lt.mpr hj)]
  · obtain ⟨_, hu, m', rfl⟩ := sameButDst_opSimulation.exec_rel ⟨m, rfl⟩ he
    exact ⟨m', hu⟩

/-- Settles O22: the last byte stored is `capturedByte`, whose bits above the samples are 0. -/
theorem partialByteIsRightAligned : Obligations.PartialByteIsRightAligned := by
  intro info s t he hpart
  obtain ⟨-, -, -, rfl⟩ := execXchgSeqIn_next.mp he
  generalize xchgCount s.params info = n at hpart ⊢
  have hlast : n / 8 < ceil8 n := by unfold ceil8; omega
  refine ⟨capturedByte s n (n / 8), by rw [sequenceIn_dst_read, if_pos hlast], fun m hm => ?_, fun m hm => ?_⟩
  · rw [capturedByte_getLsbD s n _ (show m < 8 by omega), capturedBit]
    simp [show 8 * (n / 8) + m < n by omega]
  · by_cases h8 : m < 8
    · rw [capturedByte_getLsbD s n _ h8, capturedBit]
      simp [show ¬ 8 * (n / 8) + m < n by omega]
    · exact BitVec.getLsbD_of_ge _ _ (by omega)

end Sys2Proof.Machine
end

section
/-! PROOFS. The layouts of the command words (30_encoding.md R71, R77): a word is the concatenation of its fields, so it is known,
under any mask, once the operation code and the fields of its form are. -/

namespace Sys2Proof

/-- A field is a concatenation exactly when its upper and its lower part are what is concatenated. -/
theorem extractLsb'_eq_append_iff {n lo a b : Nat} {w : BitVec n} {x : BitVec a} {y : BitVec b} :
    w.extractLsb' lo (a + b) = x ++ y ↔ w.extractLsb' (lo + b) a = x ∧ w.extractLsb' lo b = y := by
  rw [← BitVec.extractLsb'_append_extractLsb'_eq_extractLsb' (start₂ := lo + b) rfl]
  constructor
  · intro h
    have hhigh := congrArg (BitVec.extractLsb' b a) h
    have hlow := congrArg (BitVec.extractLsb' 0 b) h
    simp only [BitVec.extractLsb'_append_eq_left, BitVec.extractLsb'_append_eq_right] at hhigh hlow
    exact ⟨hhigh, hlow⟩
  · rintro ⟨rfl, rfl⟩
    rfl

variable {w : BitVec 44}

/-- `GEN_SEQ`: `op`, `arg[39:9]`, `count`. -/
theorem genSeqWord_iff {op : BitVec 4} {zero : BitVec 31} {count : BitVec 9} :
    w = op ++ zero ++ count ↔ cmdOp w = op ∧ cmdArg w 9 31 = zero ∧ cmdArg w 0 9 = count := by
  have hself : w = w.extractLsb' 0 (4 + 31 + 9) := BitVec.extractLsb'_eq_self.symm
  rw [hself, extractLsb'_eq_append_iff, extractLsb'_eq_append_iff, ← hself, and_assoc]
  rfl

/-- `XCHG_SEQ`: `op`, `arg[39:8]`, `info`. -/
theorem xchgSeqWord_iff {op : BitVec 4} {zero : BitVec 32} {info : BitVec 8} :
    w = op ++ zero ++ info ↔ cmdOp w = op ∧ cmdArg w 8 32 = zero ∧ cmdArg w 0 8 = info := by
  have hself : w = w.extractLsb' 0 (4 + 32 + 8) := BitVec.extractLsb'_eq_self.symm
  rw [hself, extractLsb'_eq_append_iff, extractLsb'_eq_append_iff, ← hself, and_assoc]
  rfl

/-- `TRANSFER`: `op`, `wdata`, `arg[7:4]`, `req`. -/
theorem transferWord_iff {op : BitVec 4} {wdata : Word} {zero req : BitVec 4} :
    w = op ++ wdata ++ zero ++ req ↔
      cmdOp w = op ∧ cmdArg w 8 32 = wdata ∧ cmdArg w 4 4 = zero ∧ cmdArg w 0 4 = req := by
  have hself : w = w.extractLsb' 0 (4 + 32 + 4 + 4) := BitVec.extractLsb'_eq_self.symm
  rw [hself, extractLsb'_eq_append_iff, extractLsb'_eq_append_iff, extractLsb'_eq_append_iff, ← hself, and_assoc, and_assoc]
  rfl

/-- `CFG_WRITE`: `op`, `arg[39:17]`, `data_phase`, `idle`, `turnaround`. -/
theorem cfgWriteWord_iff {op : BitVec 4} {zero : BitVec 23} {dp : BitVec 1} {idle turnaround : BitVec 8} :
    w = op ++ zero ++ dp ++ idle ++ turnaround ↔
      cmdOp w = op ∧ cmdArg w 17 23 = zero ∧ cmdArg w 16 1 = dp ∧ cmdArg w 8 8 = idle ∧ cmdArg w 0 8 = turnaround := by
  have hself : w = w.extractLsb' 0 (4 + 23 + 1 + 8 + 8) := BitVec.extractLsb'_eq_self.symm
  rw [hself, extractLsb'_eq_append_iff, extractLsb'_eq_append_iff, extractLsb'_eq_append_iff, extractLsb'_eq_append_iff,
    ← hself, and_assoc, and_assoc, and_assoc]
  rfl

theorem cmdArg_one (w : BitVec 44) (i : Nat) : cmdArg w i 1 = BitVec.ofBool (w.getLsbD i) := by
  ext j hj
  simp [cmdArg, show j = 0 by omega]

theorem cmdArg_getLsbD (w : BitVec 44) (lo : Nat) {len i : Nat} (hi : i < len) :
    (cmdArg w lo len).getLsbD i = w.getLsbD (lo + i) := by
  simp [cmdArg, hi]

/-- The operation code as `w >>> 40`, the way R81 is stated. -/
theorem cmdOp_eq_iff {k : Nat} (hk : k < 16) : cmdOp w = BitVec.ofNat 4 k ↔ w >>> 40 = BitVec.ofNat 44 k := by
  have hw : w.toNat >>> 40 < 16 := by rw [Nat.shiftRight_eq_div_pow]; omega
  rw [← BitVec.toNat_inj, ← BitVec.toNat_inj, cmdOp, BitVec.extractLsb'_toNat, BitVec.toNat_ushiftRight, BitVec.toNat_ofNat,
    BitVec.toNat_ofNat, Nat.mod_eq_of_lt hw]
  omega

/-! ### under a mask -/

theorem cmdOp_and (w v : BitVec 44) : cmdOp (w &&& v) = cmdOp w &&& cmdOp v := BitVec.extractLsb'_and

theorem cmdArg_and (w v : BitVec 44) (lo len : Nat) : cmdArg (w &&& v) lo len = cmdArg w lo len &&& cmdArg v lo len :=
  BitVec.extractLsb'_and

theorem genSeqWord_and_iff {mop op : BitVec 4} {mzero zero : BitVec 31} {mcount count : BitVec 9} :
    w &&& (mop ++ mzero ++ mcount) = op ++ zero ++ count ↔
      cmdOp w &&& mop = op ∧ cmdArg w 9 31 &&& mzero = zero ∧ cmdArg w 0 9 &&& mcount = count := by
  obtain ⟨hop, hzero, hcount⟩ := genSeqWord_iff.mp (Eq.refl (mop ++ mzero ++ mcount))
  rw [genSeqWord_iff, cmdOp_and, cmdArg_and, cmdArg_and, hop, hzero, hcount]

theorem xchgSeqWord_and_iff {mop op : BitVec 4} {mzero zero : BitVec 32} {minfo info : BitVec 8} :
    w &&& (mop ++ mzero ++ minfo) = op ++ zero ++ info ↔
      cmdOp w &&& mop = op ∧ cmdArg w 8 32 &&& mzero = zero ∧ cmdArg w 0 8 &&& minfo = info := by
  obtain ⟨hop, hzero, hinfo⟩ := xchgSeqWord_iff.mp (Eq.refl (mop ++ mzero ++ minfo))
  rw [xchgSeqWord_iff, cmdOp_and, cmdArg_and, cmdArg_and, hop, hzero, hinfo]

theorem transferWord_and_iff {mop op : BitVec 4} {mwdata wdata : Word} {mzero mreq zero req : BitVec 4} :
    w &&& (mop ++ mwdata ++ mzero ++ mreq) = op ++ wdata ++ zero ++ req ↔
      cmdOp w &&& mop = op ∧ cmdArg w 8 32 &&& mwdata = wdata ∧ cmdArg w 4 4 &&& mzero = zero ∧ cmdArg w 0 4 &&& mreq = req := by
  obtain ⟨hop, hwdata, hzero, hreq⟩ := transferWord_iff.mp (Eq.refl (mop ++ mwdata ++ mzero ++ mreq))
  rw [transferWord_iff, cmdOp_and, cmdArg_and, cmdArg_and, cmdArg_and, hop, hwdata, hzero, hreq]

theorem cfgWriteWord_and_iff {mop op : BitVec 4} {mzero zero : BitVec 23} {mdp dp : BitVec 1}
    {midle mturnaround idle turnaround : BitVec 8} :
    w &&& (mop ++ mzero ++ mdp ++ midle ++ mturnaround) = op ++ zero ++ dp ++ idle ++ turnaround ↔
      cmdOp w &&& mop = op ∧ cmdArg w 17 23 &&& mzero = zero ∧ cmdArg w 16 1 &&& mdp = dp ∧
        cmdArg w 8 8 &&& midle = idle ∧ cmdArg w 0 8 &&& mturnaround = turnaround := by
  obtain ⟨hop, hzero, hdp, hidle, hturn⟩ := cfgWriteWord_iff.mp (Eq.refl (mop ++ mzero ++ mdp ++ midle ++ mturnaround))
  rw [cfgWriteWord_iff, cmdOp_and, cmdArg_and, cmdArg_and, cmdArg_and, cmdArg_and, hop, hzero, hdp, hidle, hturn]

end Sys2Proof
end

section
/-! PROOFS. The decoder and the encoder are inverse to each other (30_encoding.md R71, R77, R80). -/

namespace Sys2Proof

variable {w : BitVec 44} {i : Instr}

theorem decodeGenSeq_eq_ok_iff :
    decodeGenSeq w = .ok i ↔ cmdArg w 9 31 = 0 ∧ i.wf = true ∧ .genSeq (cmdArg w 0 9) = i := by
  unfold decodeGenSeq
  constructor
  · intro h
    split_ifs at h with hzero
    cases h
    exact ⟨hzero, rfl, rfl⟩
  · rintro ⟨hzero, -, rfl⟩
    exact if_pos hzero

/-- `info[7]` selects the form, and `info[6]` is clear (R77): what `Instr.wf` asks. -/
theorem decodeXchgSeq_eq_ok_iff :
    decodeXchgSeq w = .ok i ↔
      cmdArg w 8 32 = 0 ∧ i.wf = true ∧ (.xchgSeqOut (cmdArg w 0 8) = i ∨ .xchgSeqIn (cmdArg w 0 8) = i) := by
  have h7 := cmdArg_getLsbD w 0 (show 7 < 8 by decide)
  have h6 := cmdArg_getLsbD w 0 (show 6 < 8 by decide)
  unfold decodeXchgSeq
  constructor
  · intro h
    split_ifs at h with hbad hsel
    · cases h; simp_all [Instr.wf]
    · cases h; simp_all [Instr.wf]
  · rintro ⟨hzero, hwf, rfl | rfl⟩
    · simp_all [Instr.wf]
    · simp_all [Instr.wf]

/-- `req[1]` selects the form (R71). -/
theorem decodeTransfer_eq_ok_iff :
    decodeTransfer w = .ok i ↔
      cmdArg w 4 4 = 0 ∧ i.wf = true ∧
        (.transferRd (cmdArg w 0 4) = i ∨ .transferWr (cmdArg w 0 4) (cmdArg w 8 32) = i) := by
  have h1 := cmdArg_getLsbD w 0 (show 1 < 4 by decide)
  unfold decodeTransfer
  constructor
  · intro h
    split_ifs at h with hbad hsel
    · cases h; simp_all [Instr.wf]
    · cases h; simp_all [Instr.wf]
  · rintro ⟨hzero, hwf, rfl | rfl⟩
    · simp_all [Instr.wf]
    · simp_all [Instr.wf]

theorem decodeCfgWrite_eq_ok_iff :
    decodeCfgWrite w = .ok i ↔
      cmdArg w 17 23 = 0 ∧ i.wf = true ∧ .cfgWrite (cmdArg w 0 8) (cmdArg w 8 8) (w.getLsbD 16) = i := by
  unfold decodeCfgWrite
  constructor
  · intro h
    split_ifs at h with hzero
    cases h
    exact ⟨hzero, rfl, rfl⟩
  · rintro ⟨hzero, -, rfl⟩
    exact if_pos hzero

theorem decodeCmd_of_op_one (hop : cmdOp w = 1) : decodeCmd w = decodeGenSeq w := by simp [decodeCmd, hop]

theorem decodeCmd_of_op_two (hop : cmdOp w = 2) : decodeCmd w = decodeXchgSeq w := by simp [decodeCmd, hop]

theorem decodeCmd_of_op_three (hop : cmdOp w = 3) : decodeCmd w = decodeTransfer w := by simp [decodeCmd, hop]

theorem decodeCmd_of_op_four (hop : cmdOp w = 4) : decodeCmd w = decodeCfgWrite w := by simp [decodeCmd, hop]

/-- The operation code selects the layout, and what is read by it is well formed (R71). -/
theorem decodeCmd_eq_ok_iff :
    decodeCmd w = .ok i ↔
      cmdOp w = 1 ∧ cmdArg w 9 31 = 0 ∧ i.wf = true ∧ .genSeq (cmdArg w 0 9) = i ∨
      cmdOp w = 2 ∧ cmdArg w 8 32 = 0 ∧ i.wf = true ∧ (.xchgSeqOut (cmdArg w 0 8) = i ∨ .xchgSeqIn (cmdArg w 0 8) = i) ∨
      cmdOp w = 3 ∧ cmdArg w 4 4 = 0 ∧ i.wf = true ∧
        (.transferRd (cmdArg w 0 4) = i ∨ .transferWr (cmdArg w 0 4) (cmdArg w 8 32) = i) ∨
      cmdOp w = 4 ∧ cmdArg w 17 23 = 0 ∧ i.wf = true ∧ .cfgWrite (cmdArg w 0 8) (cmdArg w 8 8) (w.getLsbD 16) = i := by
  rw [← decodeGenSeq_eq_ok_iff, ← decodeXchgSeq_eq_ok_iff, ← decodeTransfer_eq_ok_iff, ← decodeCfgWrite_eq_ok_iff]
  unfold decodeCmd
  split_ifs <;> simp_all

/-- A word with the operation code and the fields of an operation decodes to it. -/
theorem decodeCmd_of_encode (hwf : i.wf = true) (he : encode i = .cmd w) : decodeCmd w = .ok i := by
  rw [decodeCmd_eq_ok_iff]
  have hw := he.symm
  cases i with
  | genSeq count =>
    obtain ⟨hop, hzero, rfl⟩ := genSeqWord_iff.mp (CodeWord.cmd.inj hw)
    exact .inl ⟨hop, hzero, hwf, rfl⟩
  | xchgSeqOut info =>
    obtain ⟨hop, hzero, rfl⟩ := xchgSeqWord_iff.mp (CodeWord.cmd.inj hw)
    exact .inr (.inl ⟨hop, hzero, hwf, .inl rfl⟩)
  | xchgSeqIn info =>
    obtain ⟨hop, hzero, rfl⟩ := xchgSeqWord_iff.mp (CodeWord.cmd.inj hw)
    exact .inr (.inl ⟨hop, hzero, hwf, .inr rfl⟩)
  | transferRd req =>
    obtain ⟨hop, -, hzero, rfl⟩ := transferWord_iff.mp (CodeWord.cmd.inj hw)
    exact .inr (.inr (.inl ⟨hop, hzero, hwf, .inl rfl⟩))
  | transferWr req wdata =>
    obtain ⟨hop, rfl, hzero, rfl⟩ := transferWord_iff.mp (CodeWord.cmd.inj hw)
    exact .inr (.inr (.inl ⟨hop, hzero, hwf, .inr rfl⟩))
  | cfgWrite turnaround idle dataPhase =>
    obtain ⟨hop, hzero, hdp, rfl, rfl⟩ := cfgWriteWord_iff.mp (CodeWord.cmd.inj hw)
    rw [cmdArg_one, BitVec.ofBool_eq_iff_eq] at hdp
    exact .inr (.inr (.inr ⟨hop, hzero, hwf, by rw [hdp]⟩))
  | writeBit | readBit | clockCycle => cases he

/-- Settles O6: the encoded word has the operation's fields where the decoder looks for them. -/
theorem decodeOfEncode : Obligations.DecodeOfEncode := by
  intro i hwf
  cases he : encode i with
  | cmd w => exact decodeCmd_of_encode hwf he
  | uop w =>
    cases i with
    | genSeq | xchgSeqOut | xchgSeqIn | transferRd | transferWr | cfgWrite => cases he
    | writeBit v => cases he; exact Machine.decodeUop_writeBit v
    | readBit | clockCycle => cases he; rfl

/-- What a command word decodes to is well formed and has the word's fields, but for the `wdata` of a read. -/
theorem encode_of_decodeCmd (h : decodeCmd w = .ok i) :
    i.wf = true ∧ match i with
      | .transferRd _ => encode i = .cmd (w &&& 0xF00000000FF#44)
      | _ => encode i = .cmd w := by
  rcases decodeCmd_eq_ok_iff.mp h with ⟨hop, hzero, hwf, rfl⟩ | ⟨hop, hzero, hwf, rfl | rfl⟩ |
    ⟨hop, hzero, hwf, rfl | rfl⟩ | ⟨hop, hzero, hwf, rfl⟩
  · exact ⟨hwf, congrArg CodeWord.cmd (genSeqWord_iff.mpr ⟨hop, hzero, rfl⟩).symm⟩
  · exact ⟨hwf, congrArg CodeWord.cmd (xchgSeqWord_iff.mpr ⟨hop, hzero, rfl⟩).symm⟩
  · exact ⟨hwf, congrArg CodeWord.cmd (xchgSeqWord_iff.mpr ⟨hop, hzero, rfl⟩).symm⟩
  · have hmasked := (transferWord_and_iff (mwdata := 0)).mpr ⟨BitVec.and_allOnes.trans hop, BitVec.and_zero,
      BitVec.and_allOnes.trans hzero, BitVec.and_allOnes⟩
    exact ⟨hwf, congrArg CodeWord.cmd hmasked.symm⟩
  · exact ⟨hwf, congrArg CodeWord.cmd (transferWord_iff.mpr ⟨hop, rfl, hzero, rfl⟩).symm⟩
  · exact ⟨hwf, congrArg CodeWord.cmd (cfgWriteWord_iff.mpr ⟨hop, hzero, cmdArg_one w 16, rfl, rfl⟩).symm⟩

theorem encode_of_decodeUop {u : BitVec 3} (h : decodeUop u = .ok i) : i.wf = true ∧ encode i = .uop u := by
  unfold decodeUop at h
  split_ifs at h with hclock hwrite hread <;> cases h
  · exact ⟨rfl, congrArg CodeWord.uop hclock.symm⟩
  · refine ⟨rfl, congrArg CodeWord.uop ?_⟩
    clear hclock
    revert u; decide
  · exact ⟨rfl, congrArg CodeWord.uop hread.symm⟩

/-- Settles O7: a word is spelled by its fields, and of those the decoder drops the `wdata` of a read only. -/
theorem encodeOfDecode : Obligations.EncodeOfDecode := by
  intro c i h
  cases c with
  | cmd w =>
    obtain ⟨hwf, he⟩ := encode_of_decodeCmd h
    refine ⟨hwf, ?_⟩
    cases i <;> exact he
  | uop u => exact encode_of_decodeUop h

end Sys2Proof
end

section
/-! PROOFS. The decoder agrees with the opcode table (30_encoding.md R71, R80): the mask and pattern of a row fix the operation
code, the must-be-zero bits, and the bit that selects the form where two forms share a code. -/

namespace Sys2Proof

theorem decodeUop_isMicroOp {u : BitVec 3} {i : Instr} (h : decodeUop u = .ok i) : i.isMicroOp = true := by
  unfold decodeUop at h
  split_ifs at h <;> cases h <;> rfl

theorem genSeqRow_iff (w : BitVec 44) :
    w &&& 0xFFFFFFFFE00#44 = 0x10000000000#44 ↔ ∃ count, decodeCmd w = .ok (.genSeq count) := by
  have hmask := genSeqWord_and_iff (w := w) (mop := .allOnes 4) (mzero := .allOnes 31) (mcount := 0) (op := 1) (zero := 0)
    (count := 0)
  simp only [BitVec.and_allOnes] at hmask
  simpa [decodeCmd_eq_ok_iff, Instr.wf] using hmask

theorem xchgSeqOutRow_iff (w : BitVec 44) :
    w &&& 0xFFFFFFFFFC0#44 = 0x20000000000#44 ↔ ∃ info, decodeCmd w = .ok (.xchgSeqOut info) := by
  have hmask := xchgSeqWord_and_iff (w := w) (mop := .allOnes 4) (mzero := .allOnes 32) (minfo := 0xC0) (op := 2) (zero := 0)
    (info := 0)
  have hinfo : ∀ info : BitVec 8, info &&& 0xC0 = 0 ↔ (Instr.xchgSeqOut info).wf = true := by decide
  simp only [BitVec.and_allOnes, hinfo] at hmask
  simpa [decodeCmd_eq_ok_iff] using hmask

theorem xchgSeqInRow_iff (w : BitVec 44) :
    w &&& 0xFFFFFFFFFC0#44 = 0x20000000080#44 ↔ ∃ info, decodeCmd w = .ok (.xchgSeqIn info) := by
  have hmask := xchgSeqWord_and_iff (w := w) (mop := .allOnes 4) (mzero := .allOnes 32) (minfo := 0xC0) (op := 2) (zero := 0)
    (info := 0x80)
  have hinfo : ∀ info : BitVec 8, info &&& 0xC0 = 0x80 ↔ (Instr.xchgSeqIn info).wf = true := by decide
  simp only [BitVec.and_allOnes, hinfo] at hmask
  simpa [decodeCmd_eq_ok_iff] using hmask

theorem transferRdRow_iff (w : BitVec 44) :
    w &&& 0xF00000000F2#44 = 0x30000000002#44 ↔ ∃ req, decodeCmd w = .ok (.transferRd req) := by
  have hmask := transferWord_and_iff (w := w) (mop := .allOnes 4) (mwdata := 0) (mzero := .allOnes 4) (mreq := 2) (op := 3)
    (wdata := 0) (zero := 0) (req := 2)
  have hreq : ∀ req : BitVec 4, req &&& 2 = 2 ↔ (Instr.transferRd req).wf = true := by decide
  simp only [BitVec.and_allOnes, hreq] at hmask
  simpa [decodeCmd_eq_ok_iff] using hmask

theorem transferWrRow_iff (w : BitVec 44) :
    w &&& 0xF00000000F2#44 = 0x30000000000#44 ↔ ∃ req wdata, decodeCmd w = .ok (.transferWr req wdata) := by
  have hmask := transferWord_and_iff (w := w) (mop := .allOnes 4) (mwdata := 0) (mzero := .allOnes 4) (mreq := 2) (op := 3)
    (wdata := 0) (zero := 0) (req := 0)
  have hreq : ∀ (req : BitVec 4), req &&& 2 = 0 ↔ (Instr.transferWr req (cmdArg w 8 32)).wf = true := by
    simp only [Instr.wf]; decide
  simp only [BitVec.and_allOnes, hreq] at hmask
  simpa [decodeCmd_eq_ok_iff] using hmask

theorem cfgWriteRow_iff (w : BitVec 44) :
    w &&& 0xFFFFFFE0000#44 = 0x40000000000#44 ↔
      ∃ turnaround idle dataPhase, decodeCmd w = .ok (.cfgWrite turnaround idle dataPhase) := by
  have hmask := cfgWriteWord_and_iff (w := w) (mop := .allOnes 4) (mzero := .allOnes 23) (mdp := 0) (midle := 0)
    (mturnaround := 0) (op := 4) (zero := 0) (dp := 0) (idle := 0) (turnaround := 0)
  simp only [BitVec.and_allOnes] at hmask
  simpa [decodeCmd_eq_ok_iff, Instr.wf] using hmask

/-- The rows that command words match. -/
theorem commandRows_iff (w : BitVec 44) (m : String) :
    (∃ r ∈ opcodeTable, r.mnemonic = m ∧ r.matchesWord (.cmd w) = true) ↔
      "GEN_SEQ" = m ∧ (∃ count, decodeCmd w = .ok (.genSeq count)) ∨
      "XCHG_SEQ.OUT" = m ∧ (∃ info, decodeCmd w = .ok (.xchgSeqOut info)) ∨
      "XCHG_SEQ.IN" = m ∧ (∃ info, decodeCmd w = .ok (.xchgSeqIn info)) ∨
      "TRANSFER.RD" = m ∧ (∃ req, decodeCmd w = .ok (.transferRd req)) ∨
      "TRANSFER.WR" = m ∧ (∃ req wdata, decodeCmd w = .ok (.transferWr req wdata)) ∨
      "CFG_WRITE" = m ∧ (∃ turnaround idle dataPhase, decodeCmd w = .ok (.cfgWrite turnaround idle dataPhase)) := by
  simp [opcodeTable, OpcodeRow.matchesWord, genSeqRow_iff, xchgSeqOutRow_iff, xchgSeqInRow_iff, transferRdRow_iff,
    transferWrRow_iff, cfgWriteRow_iff]

/-- The rows that micro-operation words match. -/
theorem microOpRows_iff (u : BitVec 3) (m : String) :
    (∃ r ∈ opcodeTable, r.mnemonic = m ∧ r.matchesWord (.uop u) = true) ↔
      "WRITE_BIT" = m ∧ (∃ v, decodeUop u = .ok (.writeBit v)) ∨
      "READ_BIT" = m ∧ decodeUop u = .ok .readBit ∨ "CLOCK_CYCLE" = m ∧ decodeUop u = .ok .clockCycle := by
  have hwrite : u &&& 6 = 4 ↔ ∃ v, decodeUop u = .ok (.writeBit v) := by revert u; decide
  have hread : u &&& 7 = 6 ↔ decodeUop u = .ok .readBit := by revert u; decide
  have hclock : u &&& 7 = 2 ↔ decodeUop u = .ok .clockCycle := by revert u; decide
  rw [← hwrite, ← hread, ← hclock]
  simp [opcodeTable, OpcodeRow.matchesWord]

/-- Settles O8: the mask and the pattern of a row say of the fields what the decoder asks of them. -/
theorem decoderAgreesWithOpcodeTable : Obligations.DecoderAgreesWithOpcodeTable := by
  rintro (w | u) m
  · rw [commandRows_iff]
    constructor
    · rintro ⟨i, hd : decodeCmd w = .ok i, rfl⟩
      cases i with
      | genSeq | xchgSeqOut | xchgSeqIn | transferRd | transferWr | cfgWrite => simp [Instr.mnemonic, hd]
      | writeBit | readBit | clockCycle => exact nomatch Machine.decodeCmd_isMicroOp hd
    · rintro (⟨rfl, _, hd⟩ | ⟨rfl, _, hd⟩ | ⟨rfl, _, hd⟩ | ⟨rfl, _, hd⟩ | ⟨rfl, _, _, hd⟩ | ⟨rfl, _, _, _, hd⟩) <;>
        exact ⟨_, hd, rfl⟩
  · rw [microOpRows_iff]
    constructor
    · rintro ⟨i, hd : decodeUop u = .ok i, rfl⟩
      cases i with
      | genSeq | xchgSeqOut | xchgSeqIn | transferRd | transferWr | cfgWrite => exact nomatch decodeUop_isMicroOp hd
      | writeBit | readBit | clockCycle => simp [Instr.mnemonic, hd]
    · rintro (⟨rfl, _, hd⟩ | ⟨rfl, hd⟩ | ⟨rfl, hd⟩) <;> exact ⟨_, hd, rfl⟩
end Sys2Proof
end

section
/-! PROOFS. What is refused (30_encoding.md R81, 60_exceptions.md R195). -/

namespace Sys2Proof

variable {w : BitVec 44}

theorem decodeCmd_reservedOp (h : w >>> 40 = 0 ∨ 5 ≤ (w >>> 40).toNat) : decodeCmd w = .error (.reservedOp (cmdOp w)) := by
  have hne {k : Nat} (hpos : 0 < k) (hk : k < 5) : cmdOp w ≠ BitVec.ofNat 4 k := by
    rw [ne_eq, cmdOp_eq_iff (by omega)]
    intro hop
    simp [hop, ← BitVec.toNat_inj] at h
    omega
  simp [decodeCmd, hne (k := 1), hne (k := 2), hne (k := 3), hne (k := 4)]

theorem decodeGenSeq_mustBeZero (h : w &&& 0xFFFFFFFE00 ≠ 0) : decodeGenSeq w = .error .mustBeZero :=
  if_neg fun hzero => h ((genSeqWord_and_iff (mop := 0) (mzero := .allOnes 31) (mcount := 0)).mpr
    ⟨BitVec.and_zero, BitVec.and_allOnes.trans hzero, BitVec.and_zero⟩)

theorem decodeXchgSeq_mustBeZero (h : w &&& 0xFFFFFFFF40 ≠ 0) : decodeXchgSeq w = .error .mustBeZero := by
  refine if_pos (by_contra fun hclear => h ?_)
  obtain ⟨hzero, h6⟩ : cmdArg w 8 32 = 0 ∧ w.getLsbD 6 = false := by simpa using hclear
  have hinfo : ∀ info : BitVec 8, info.getLsbD 6 = false → info &&& 0x40 = 0 := by decide
  exact (xchgSeqWord_and_iff (mop := 0) (mzero := .allOnes 32) (minfo := 0x40)).mpr
    ⟨BitVec.and_zero, BitVec.and_allOnes.trans hzero, hinfo _ ((cmdArg_getLsbD w 0 (by decide)).trans h6)⟩

theorem decodeTransfer_mustBeZero (h : w &&& 0xF0 ≠ 0) : decodeTransfer w = .error .mustBeZero :=
  if_pos fun hzero => h ((transferWord_and_iff (mop := 0) (mwdata := 0) (mzero := .allOnes 4) (mreq := 0)).mpr
    ⟨BitVec.and_zero, BitVec.and_zero, BitVec.and_allOnes.trans hzero, BitVec.and_zero⟩)

theorem decodeCfgWrite_mustBeZero (h : w &&& 0xFFFFFE0000 ≠ 0) : decodeCfgWrite w = .error .mustBeZero :=
  if_neg fun hzero => h ((cfgWriteWord_and_iff (mop := 0) (mzero := .allOnes 23) (mdp := 0) (midle := 0)
    (mturnaround := 0)).mpr
    ⟨BitVec.and_zero, BitVec.and_allOnes.trans hzero, BitVec.and_zero, BitVec.and_zero, BitVec.and_zero⟩)

end Sys2Proof

namespace Sys2Proof.Machine

theorem step_of_undecodable {s s' : State} {w : CodeWord} {e : DecodeError} (hf : fetch s = some (w, s'))
    (hd : decode w = .error e) : step s = .refused (.undecodable e) := by
  simp [step, hf, hd]

theorem exec_busy {i : Instr} {s : State} (hi : i.isMicroOp = false) (hbusy : s.busy = true) : exec i s = .refused .busy := by
  cases i with
  | genSeq | xchgSeqOut | xchgSeqIn | transferRd | transferWr | cfgWrite => exact whenIdle_busy hbusy _
  | writeBit | readBit | clockCycle => cases hi

theorem execGenSeq_countOutOfRange {count : BitVec 9} {s : State} (hidle : s.busy = false)
    (h : s.params.genMax < count.toNat) : execGenSeq count s = .refused .countOutOfRange := by
  simp [execGenSeq, hidle, h]

theorem execCfgWrite_turnaroundOutOfRange {turnaround idle : BitVec 8} {dp : Bit} {s : State} (hidle : s.busy = false)
    (h : turnaround = 0 ∨ s.params.turnMax < turnaround.toNat) :
    execCfgWrite turnaround idle dp s = .refused .turnaroundOutOfRange := by
  rcases h with rfl | h
  · simp [execCfgWrite, hidle]
  · simp [execCfgWrite, hidle, h]

theorem execCfgWrite_idleOutOfRange {turnaround idle : BitVec 8} {dp : Bit} {s : State} (hidle : s.busy = false)
    (hlow : 1 ≤ turnaround.toNat) (hhigh : turnaround.toNat ≤ s.params.turnMax) (h : s.params.idleMax < idle.toNat) :
    execCfgWrite turnaround idle dp s = .refused .idleOutOfRange := by
  simp [execCfgWrite, hidle, h, Nat.ne_of_gt hlow, Nat.not_lt.mpr hhigh]

theorem execTransferRd_notConfigured {req : BitVec 4} {s : State} (hidle : s.busy = false) (hvalid : s.cfg.valid = false) :
    execTransferRd req s = .refused .notConfigured := by
  simp [execTransferRd, hidle, hvalid]

theorem execTransferWr_notConfigured {req : BitVec 4} {w : Word} {s : State} (hidle : s.busy = false)
    (hvalid : s.cfg.valid = false) : execTransferWr req w s = .refused .notConfigured := by
  simp [execTransferWr, hidle, hvalid]

/-- Settles O9: a reserved code and a must-be-zero bit are the decoder's to refuse, the rest the tests before each operation. -/
theorem illegalCommandsAreRefused : Obligations.IllegalCommandsAreRefused := by
  refine ⟨fun w h => ⟨_, decodeCmd_reservedOp h⟩, fun w h => ?_,
    fun _ _ _ _ hu hp hd => step_of_undecodable (fetch_command hu hp) hd,
    fun _ _ hidle h => execGenSeq_countOutOfRange hidle h,
    fun _ _ _ _ hidle => ⟨execCfgWrite_turnaroundOutOfRange hidle, execCfgWrite_idleOutOfRange hidle⟩,
    fun _ _ _ hidle hvalid => ⟨execTransferRd_notConfigured hidle hvalid, execTransferWr_notConfigured hidle hvalid⟩,
    fun _ _ => exec_busy⟩
  rcases h with ⟨hop, h⟩ | ⟨hop, h⟩ | ⟨hop, h⟩ | ⟨hop, h⟩
  · rw [decodeCmd_of_op_one ((cmdOp_eq_iff (by decide)).mpr hop), decodeGenSeq_mustBeZero h]
  · rw [decodeCmd_of_op_two ((cmdOp_eq_iff (by decide)).mpr hop), decodeXchgSeq_mustBeZero h]
  · rw [decodeCmd_of_op_three ((cmdOp_eq_iff (by decide)).mpr hop), decodeTransfer_mustBeZero h]
  · rw [decodeCmd_of_op_four ((cmdOp_eq_iff (by decide)).mpr hop), decodeCfgWrite_mustBeZero h]

end Sys2Proof.Machine
end

section
/-! PROOFS. A word placed with `withFetchWord` (10_state.md R39, 30_encoding.md R80). -/

namespace Sys2Proof.Machine

theorem uopPresent_of_decodeUop {u : BitVec 3} {i : Instr} (h : decodeUop u = .ok i) : uopPresent u = true := by
  have habsent : ∀ u : BitVec 3, uopPresent u = false → decodeUop u = .error .noMicroOp := by decide
  cases hu : uopPresent u with
  | true => rfl
  | false => rw [habsent u hu] at h; cases h

theorem codeWordOf_eq_some_cases {nbits w : Nat} {c : CodeWord} (h : codeWordOf nbits w = some c) :
    (nbits ≤ 8 ∧ w < 2 ^ 3 ∧ c = .uop (BitVec.ofNat 3 w)) ∨ (8 < nbits ∧ w < 2 ^ 44 ∧ c = .cmd (BitVec.ofNat 44 w)) := by
  unfold codeWordOf at h
  split_ifs at h with hn hw hw
  · exact .inl ⟨hn, hw, (Option.some.inj h).symm⟩
  · exact .inr ⟨Nat.lt_of_not_le hn, hw, (Option.some.inj h).symm⟩

theorem decodeTableWord_eq_some {nbits w : Nat} {i : Instr} (h : decodeTableWord nbits w = some i) :
    ∃ c, codeWordOf nbits w = some c ∧ decode c = .ok i := by
  unfold decodeTableWord at h
  split at h
  · next c hc =>
    cases hd : decode c with
    | ok j => rw [hd] at h; cases h; exact ⟨c, hc, hd⟩
    | error e => rw [hd] at h; cases h
  · cases h

theorem withFetchWord_uop {nbits w : Nat} (hn : nbits ≤ 8) (hw : w < 2 ^ 3) (s : State) :
    s.withFetchWord nbits w = { s with uop := BitVec.ofNat 3 w } := by
  rw [State.withFetchWord, if_pos hn, if_pos hw]

theorem withFetchWord_command {nbits w : Nat} (hn : 8 < nbits) (hw : w < 2 ^ 44) (s : State) :
    s.withFetchWord nbits w = { s with uop := 0, pending := ⟨BitVec.ofNat 44 w, none, none⟩ :: s.pending } := by
  rw [State.withFetchWord, if_neg (Nat.not_le.mpr hn), if_pos hw]

/-- Settles O3: the word stands where `fetch` takes the next one from, and taking it leaves the state without it. -/
theorem placedWordRunsNext : Obligations.PlacedWordRunsNext := by
  intro s nbits w i h
  obtain ⟨c, hc, hd⟩ := decodeTableWord_eq_some h
  rcases codeWordOf_eq_some_cases hc with ⟨hn, hw, rfl⟩ | ⟨hn, hw, rfl⟩
  · rw [withFetchWord_uop hn hw]
    exact step_of_fetch (fetch_uop (uopPresent_of_decodeUop hd)) hd
  · rw [withFetchWord_command hn hw]
    have hnone : uopPresent 0 = false := by decide
    exact step_of_fetch (fetch_command (c := ⟨BitVec.ofNat 44 w, none, none⟩) hnone rfl) hd

end Sys2Proof.Machine
end

section
/-! PROOFS. The fixed words and the request packets (30_encoding.md R71 to R74, R80). -/

namespace Sys2Proof.Machine

/-- Settles O5: the decoder evaluated on nine words. -/
theorem sampleWordsDecode : Obligations.SampleWordsDecode := by
  unfold Obligations.SampleWordsDecode; decide

theorem ones_five (a b c d : Bit) : ones ([a, b, c, d] ++ [a ^^ b ^^ c ^^ d]) % 2 = 0 := by
  revert a b c d; decide

/-- Settles O27: the parity bit is the exclusive-or of the other four, and there are sixteen packets. -/
theorem requestParityIsEven : Obligations.RequestParityIsEven := by
  refine ⟨fun req => ones_five .., by decide, by decide⟩

end Sys2Proof.Machine
end

section
/-! PROOFS. The count field of `XCHG_SEQ` (30_encoding.md R78, R83). -/

namespace Sys2Proof.Machine

theorem xchgCount_of_field_zero {p : Config.Params} {info : BitVec 8} (h : info.toNat % 2 ^ p.xchgCountBits.val = 0) :
    xchgCount p info = 64 :=
  if_pos ((clkField_eq p info).trans h)

theorem xchgCount_of_field_pos {p : Config.Params} {info : BitVec 8} (h : info.toNat % 2 ^ p.xchgCountBits.val ≠ 0) :
    xchgCount p info = info.toNat % 2 ^ p.xchgCountBits.val := by
  rw [← clkField_eq] at h ⊢
  exact if_neg h

/-- With the width 6 of R77 the field is `info[5:0]`. -/
theorem and_0x3F_toNat (info : BitVec 8) : (info &&& 0x3F).toNat = info.toNat % 64 :=
  Nat.and_two_pow_sub_one_eq_mod info.toNat 6

theorem legal_eq_not_bit6 {p : Config.Params} (hp : p.xchgCountBits = 6) (info : BitVec 8) :
    (Instr.xchgSeqOut info).legal p = !info.getLsbD 6 := by
  simp only [Instr.legal, hp]
  revert info; decide

/-- The field `n mod 64` spells `n`, whatever stands above it. -/
theorem xchgCount_ofNat {p : Config.Params} (hp : p.xchgCountBits = 6) {n high : Nat} (hn : 1 ≤ n) (hn' : n ≤ 64)
    (hhigh : high % 64 = 0) : xchgCount p (BitVec.ofNat 8 (high + n % 64)) = n := by
  have hfield : (BitVec.ofNat 8 (high + n % 64)).toNat % 2 ^ p.xchgCountBits.val = n % 64 := by
    rw [hp, BitVec.toNat_ofNat]
    show (high + n % 64) % 256 % 64 = n % 64
    omega
  by_cases h64 : n = 64
  · rw [xchgCount_of_field_zero (by rw [hfield, h64]), h64]
  · rw [xchgCount_of_field_pos (by omega), hfield]
    omega

theorem xchgSeq_wf_of_count {m : Nat} (hm : m < 64) :
    (Instr.xchgSeqOut (BitVec.ofNat 8 m)).wf = true ∧ (Instr.xchgSeqIn (BitVec.ofNat 8 (128 + m))).wf = true := by
  revert m; decide

/-- Settles O18: the value of the field decides, and with 6 bits the field is `info[5:0]`. -/
theorem countFieldDecoding : Obligations.CountFieldDecoding := by
  refine ⟨fun p info => ⟨xchgCount_of_field_zero, xchgCount_of_field_pos, xchgCount_range p info⟩,
    fun p hp => ⟨fun info => ?_, fun n hn hn' => ?_⟩⟩
  · have hfield : info.toNat % 2 ^ p.xchgCountBits.val = (info &&& 0x3F).toNat := by rw [hp, and_0x3F_toNat]; rfl
    refine ⟨fun h => xchgCount_of_field_zero ?_, fun h => ?_, legal_eq_not_bit6 hp info, legal_eq_not_bit6 hp info⟩
    · rw [hfield, h]; rfl
    · rw [← hfield]
      exact xchgCount_of_field_pos fun h0 => h (BitVec.eq_of_toNat_eq (hfield ▸ h0))
  · obtain ⟨hout, hin⟩ := xchgSeq_wf_of_count (show n % 64 < 64 by omega)
    exact ⟨by simpa using xchgCount_ofNat hp (high := 0) hn hn' rfl, hout, xchgCount_ofNat hp hn hn' rfl, hin⟩

end Sys2Proof.Machine
end

section
/-! PROOFS. What is legal runs (30_encoding.md R81, 60_exceptions.md R195). -/

namespace Sys2Proof.Machine

/-- Settles O10: the tests before each operation are that it is well formed, legal, and wanted in this state. -/
theorem legalOperationsRun : Obligations.LegalOperationsRun := by
  intro i s hwf hlegal hidle hvalid
  cases i with
  | genSeq count =>
    exact ⟨_, execGenSeq_next.mpr ⟨hidle rfl, by simpa [Instr.legal] using hlegal, rfl⟩⟩
  | xchgSeqOut info => exact ⟨_, exec_output (hidle rfl) (.inr ⟨info, rfl, hwf, hlegal, rfl⟩)⟩
  | xchgSeqIn info => exact ⟨_, exec_xchgSeqIn (hidle rfl) hwf hlegal⟩
  | transferRd req => exact ⟨_, execTransferRd_next.mpr ⟨hidle rfl, hvalid (.inl rfl), hwf, rfl⟩⟩
  | transferWr req wdata =>
    have hrnw : req.getLsbD 1 = false := by simpa [Instr.wf] using hwf
    exact ⟨_, execTransferWr_next.mpr ⟨hidle rfl, hvalid (.inr rfl), hrnw, rfl⟩⟩
  | cfgWrite turnaround idle dataPhase =>
    have ⟨hturn, hidl⟩ : (1 ≤ turnaround.toNat ∧ turnaround.toNat ≤ s.params.turnMax) ∧ idle.toNat ≤ s.params.idleMax := by
      simpa [Instr.legal] using hlegal
    exact ⟨_, execCfgWrite_next.mpr ⟨hidle rfl, hturn, hidl, rfl⟩⟩
  | writeBit v => exact ⟨_, execWriteBit_next.mpr rfl⟩
  | readBit => exact ⟨_, execReadBit_next.mpr rfl⟩
  | clockCycle => exact ⟨_, execClockCycle_next.mpr rfl⟩

end Sys2Proof.Machine
end

section
/-! PROOFS. The registers a transfer branches on (42_transfer.md R133, R135, R147): the acknowledgement is sampled whole, and the
procedures around it leave the configuration and the direction of the request. -/

namespace Sys2Proof.Machine

/-! ### the acknowledgement -/

/-- The three samples replace all of `ACK` (R133). -/
theorem setBit_three (ack : BitVec 3) (b0 b1 b2 : Bit) :
    setBit (setBit (setBit ack 0 b0) 1 b1) 2 b2 = BitVec.ofBool b2 ++ BitVec.ofBool b1 ++ BitVec.ofBool b0 := by
  revert ack b0 b1 b2; decide

theorem readAckBit_ack (i : Nat) (s : State) : (readAckBit i s).work.ack = setBit s.work.ack i (sampleAt s 0) := by
  simp [readAckBit, nextSample_eq_sampleAt]

theorem sampleAt_readAckBit (i j : Nat) (s : State) : sampleAt (readAckBit i s) j = sampleAt s (j + 1) :=
  sampleAt_readBit s j

theorem sampleAck_ack (s : State) : (sampleAck s).work.ack = ackAhead s := by
  simp only [sampleAck, readAckBit_ack, sampleAt_readAckBit, setBit_three]
  rfl

/-- No sample is taken before the acknowledgement. -/
theorem requestAndAck_ack (s : State) : (requestAndAck s).work.ack = ackAhead s := by
  have hscript : (turnaround1 (sendRequest s)).script = s.script := by
    simp [turnaround1, sendRequest, writeBitPar, repeatN_clockCycle]
  have hsamples : (turnaround1 (sendRequest s)).samples = s.samples := by
    simp [turnaround1, sendRequest, writeBitPar, repeatN_clockCycle]
  rw [requestAndAck, sampleAck_ack]
  simp [ackAhead, sampleAt_congr hscript hsamples]

/-! ### what the procedures leave of what a transfer branches on -/

theorem SameRecord.refl (s : State) : SameRecord s s := ⟨rfl, rfl, rfl, rfl, rfl, rfl, rfl, rfl⟩

@[simp] theorem sendRequest_cfg (s : State) : (sendRequest s).cfg = s.cfg := ((sameRecord_kept s).sendRequest_kept (.refl s)).cfg

@[simp] theorem requestAndAck_cfg (s : State) : (requestAndAck s).cfg = s.cfg :=
  ((sameRecord_kept s).requestAndAck_kept (.refl s)).cfg

/-- The direction of the request is that of `REQ`, which only the start of a transfer writes. -/
theorem req_kept (req : BitVec 4) : KeptByPhases fun s => s.work.req = req where
  mapWork_kept _ hf h := (hf _).trans h
  writeBit_kept _ h := h
  readBit_kept h := h
  clockCycle_kept h := h
  setPhase_kept _ h := h
  setDio_kept _ h := h

theorem requestAndAck_req (s : State) : (requestAndAck s).work.req = s.work.req := by
  have hrequest : (turnaround1 (sendRequest s)).work.req = s.work.req := by
    simp [turnaround1, sendRequest, writeBitPar, repeatN_clockCycle]
  exact (req_kept _).sampleAck_kept hrequest

@[simp] theorem turnaround2Read_work (s : State) : (turnaround2Read s).work = s.work := by
  simp [turnaround2Read, repeatN_clockCycle]

@[simp] theorem turnaround2Error_work (s : State) : (turnaround2Error s).work = s.work := by
  simp [turnaround2Error, repeatN_clockCycle]

@[simp] theorem idleCycles_work (s : State) : (idleCycles s).work = s.work := by
  unfold idleCycles
  split
  · simp [repeatN_clockCycle]
  · rfl

@[simp] theorem dummyRead_work (s : State) : (dummyRead s).work = s.work := by
  unfold dummyRead
  split
  · simp [repeatN_clockCycle]
  · rfl

@[simp] theorem dummyWrite_work (s : State) : (dummyWrite s).work = s.work := by
  unfold dummyWrite
  split
  · simp [repeatN_clockCycle]
  · rfl

end Sys2Proof.Machine
end

section
/-! PROOFS. The clock cycles of an operation (30_encoding.md R82, 42_transfer.md R149). -/

namespace Sys2Proof.Machine

/-! ### the cycles of each procedure -/

theorem clockCycles_cycles (n : Nat) (s : State) : cycles (repeatN n clockCycle s).trace = cycles s.trace + n := by
  simp [repeatN_clockCycle]

theorem forUp_cycles {f : Nat → State → State} (hf : ∀ i s, cycles (f i s).trace = cycles s.trace + 1) (n i : Nat) (s : State) :
    cycles (forUp f n i s).trace = cycles s.trace + n := by
  induction n generalizing i s with
  | zero => rfl
  | succ n ih => rw [forUp_succ, ih, hf]; omega

theorem sendRequest_cycles (s : State) : cycles (sendRequest s).trace = cycles s.trace + 8 := by
  simp [sendRequest, writeBitPar]

theorem turnaround1_cycles (s : State) : cycles (turnaround1 s).trace = cycles s.trace + s.cfg.turnaround := by
  simp [turnaround1, clockCycles_cycles]

theorem sampleAck_cycles (s : State) : cycles (sampleAck s).trace = cycles s.trace + 3 := by
  simp [sampleAck, readAckBit]

theorem requestAndAck_cycles (s : State) : cycles (requestAndAck s).trace = cycles s.trace + (11 + s.cfg.turnaround) := by
  rw [requestAndAck, sampleAck_cycles, turnaround1_cycles, sendRequest_cycles, sendRequest_cfg]
  omega

theorem readData_cycles (s : State) : cycles (readData s).trace = cycles s.trace + 32 := by
  simp [readData, forUp_cycles (f := readDataBit) (fun i s => by simp [readDataBit]), Config.dataBits]

theorem checkParity_cycles (s : State) : cycles (checkParity s).trace = cycles s.trace + 1 := by
  unfold checkParity readParBit
  dsimp only
  split <;> simp

theorem turnaround2Read_cycles (s : State) : cycles (turnaround2Read s).trace = cycles s.trace + s.cfg.turnaround := by
  simp [turnaround2Read, clockCycles_cycles]

theorem turnaround2Write_cycles (s : State) : cycles (turnaround2Write s).trace = cycles s.trace + s.cfg.turnaround := by
  simp [turnaround2Write, clockCycles_cycles]

theorem turnaround2Error_cycles (s : State) : cycles (turnaround2Error s).trace = cycles s.trace + s.cfg.turnaround := by
  simp [turnaround2Error, clockCycles_cycles]

theorem writeData_cycles (s : State) : cycles (writeData s).trace = cycles s.trace + 32 := by
  simp [writeData_trace, bitsOf]

theorem writeParity_cycles (s : State) : cycles (writeParity s).trace = cycles s.trace + 1 := by
  simp [writeParity]

theorem idleCycles_cycles (s : State) : cycles (idleCycles s).trace = cycles s.trace + s.cfg.idle := by
  unfold idleCycles
  split
  · simp [clockCycles_cycles]
  · omega

/-- The dummy block of the direction it belongs to (R147). -/
theorem dummyRead_cycles (s : State) :
    cycles (dummyRead s).trace = cycles s.trace + (if s.cfg.dataPhase = true ∧ s.rnw = true then 33 else 0) := by
  unfold dummyRead
  split
  · simp [clockCycles_cycles, Config.phaseBits]
  · rfl

theorem dummyWrite_cycles (s : State) :
    cycles (dummyWrite s).trace = cycles s.trace + (if s.cfg.dataPhase = true ∧ s.rnw = false then 33 else 0) := by
  unfold dummyWrite
  split
  · simp [clockCycles_cycles, Config.phaseBits]
  · rfl

/-! ### the three branches -/

theorem okRead_cycles (s : State) :
    cycles (okRead s).trace = cycles s.trace + (33 + s.cfg.turnaround + s.cfg.idle) := by
  have hparity := (sameRecord_kept s).checkParity_kept ((sameRecord_kept s).readData_kept (.refl s))
  have hturn := (sameRecord_kept s).turnaround2Read_kept hparity
  rw [okRead, finishOk_cycles, idleCycles_cycles, turnaround2Read_cycles, checkParity_cycles, readData_cycles, hparity.cfg,
    hturn.cfg]
  omega

theorem okWrite_cycles (s : State) :
    cycles (okWrite s).trace = cycles s.trace + (33 + s.cfg.turnaround + s.cfg.idle) := by
  have hturn := (sameRecord_kept s).turnaround2Write_kept (.refl s)
  have hparity := (sameRecord_kept s).writeParity_kept ((sameRecord_kept s).writeData_kept hturn)
  rw [okWrite, finishOk_cycles, idleCycles_cycles, writeParity_cycles, writeData_cycles, turnaround2Write_cycles, hparity.cfg]
  omega

/-- Of the two dummy blocks that of the request's direction is run, if any (R147). -/
theorem dummyCycles_exclusive (dataPhase rnw : Bit) :
    ((if dataPhase = true ∧ rnw = true then 33 else 0) + if dataPhase = true ∧ rnw = false then 33 else 0) =
      if dataPhase then 33 else 0 := by
  cases rnw with
  | false => simp
  | true => simp

theorem recoverWaitFault_cycles (s : State) :
    cycles (recoverWaitFault s).trace =
      cycles s.trace + (s.cfg.turnaround + if s.cfg.dataPhase then 33 else 0) := by
  have hdummy := (sameRecord_kept s).dummyRead_kept ((sameRecord_kept s).resFromAck_kept (.refl s))
  have hturn := (sameRecord_kept s).turnaround2Error_kept hdummy
  have hread : (resFromAck s).rnw = s.rnw := rfl
  have hwrite : (turnaround2Error (dummyRead (resFromAck s))).rnw = s.rnw := by simp [State.rnw, resFromAck]
  rw [recoverWaitFault, finishError_cycles, dummyWrite_cycles, turnaround2Error_cycles, dummyRead_cycles, hdummy.cfg, hturn.cfg,
    hread, hwrite]
  have hcfg : (resFromAck s).cfg = s.cfg := rfl
  have htrace : (resFromAck s).trace = s.trace := rfl
  rw [hcfg, htrace]
  have hone := dummyCycles_exclusive s.cfg.dataPhase s.rnw
  omega

theorem recoverProtocolError_cycles (s : State) :
    cycles (recoverProtocolError s).trace = cycles s.trace + (s.cfg.turnaround + 33) := by
  simp [recoverProtocolError, clockCycles_cycles, resFromAck, Config.phaseBits]

/-- What follows the acknowledgement takes what is left of the frame (R82, R149). -/
theorem branchOnAck_cycles {f : State → State} {s : State}
    (hok : cycles (f s).trace = cycles s.trace + (33 + s.cfg.turnaround + s.cfg.idle)) :
    cycles (branchOnAck f s).trace + (11 + s.cfg.turnaround) = cycles s.trace + transferCycles s.cfg (classOf s.work.ack) := by
  unfold branchOnAck
  cases classOf s.work.ack with
  | ok => simp only [hok, transferCycles]; omega
  | wait | fault => simp only [recoverWaitFault_cycles, transferCycles]; split <;> omega
  | parityError | protocolError => simp only [recoverProtocolError_cycles, transferCycles]; omega

theorem transferRead_cycles (req : BitVec 4) (s : State) :
    cycles (transferRead req s).trace = cycles s.trace + transferCycles s.cfg (classOf (ackAhead s)) := by
  have hbranch := branchOnAck_cycles (okRead_cycles (requestAndAck (setReq req s)))
  rw [requestAndAck_cycles, requestAndAck_ack, requestAndAck_cfg] at hbranch
  have hack : ackAhead (setReq req s) = ackAhead s := rfl
  simp only [setReq_cfg, setReq_trace, hack] at hbranch
  rw [transferRead]
  omega

theorem transferWrite_cycles (req : BitVec 4) (w : Word) (s : State) :
    cycles (transferWrite req w s).trace = cycles s.trace + transferCycles s.cfg (classOf (ackAhead s)) := by
  have hbranch := branchOnAck_cycles (okWrite_cycles (requestAndAck (setData w (setReq req s))))
  rw [requestAndAck_cycles, requestAndAck_ack, requestAndAck_cfg] at hbranch
  have hack : ackAhead (setData w (setReq req s)) = ackAhead s := rfl
  simp only [setReq_cfg, setReq_trace, setData_cfg, setData_trace, hack] at hbranch
  rw [transferWrite]
  omega

/-! ### the sequences -/

theorem sequenceOut_cycles (n : Nat) (s : State) : cycles (sequenceOut n s).trace = cycles s.trace + n := by
  simp [sequenceOut_trace]

theorem sequenceIn_cycles (n : Nat) (s : State) : cycles (sequenceIn n s).trace = cycles s.trace + n := by
  obtain ⟨byte, hrun⟩ := sequenceIn_eq n s
  simp [hrun, captureState]

/-- Settles O40: the closed forms of the sequences, and the cycles of a transfer added up procedure by procedure. -/
theorem frameLengths : Obligations.FrameLengths := by
  intro i s t he
  cases i with
  | genSeq count => obtain ⟨-, -, rfl⟩ := execGenSeq_next.mp he; exact sequenceOut_cycles _ s
  | xchgSeqOut info => obtain ⟨-, -, -, rfl⟩ := execXchgSeqOut_next.mp he; exact sequenceOut_cycles _ s
  | xchgSeqIn info => obtain ⟨-, -, -, rfl⟩ := execXchgSeqIn_next.mp he; exact sequenceIn_cycles _ s
  | transferRd req => obtain ⟨-, -, -, rfl⟩ := execTransferRd_next.mp he; exact transferRead_cycles req s
  | transferWr req w => obtain ⟨-, -, -, rfl⟩ := execTransferWr_next.mp he; exact transferWrite_cycles req w s
  | cfgWrite turnaround idle dataPhase => obtain ⟨-, -, -, rfl⟩ := execCfgWrite_next.mp he; rfl
  | writeBit v => obtain rfl := execWriteBit_next.mp he; simp [frameLength]
  | readBit => obtain rfl := execReadBit_next.mp he; simp [frameLength]
  | clockCycle => obtain rfl := execClockCycle_next.mp he; simp [frameLength, cycles]

end Sys2Proof.Machine
end

section
/-! PROOFS. The result a transfer returns (30_encoding.md R79, 60_exceptions.md R181). -/

namespace Sys2Proof.Machine

/-- Each class is that of one acknowledgement, or of the five that are left (R134). -/
theorem classOf_cases (ack : BitVec 3) :
    ack = 0b001 ∧ classOf ack = .ok ∨ ack = 0b010 ∧ classOf ack = .wait ∨ ack = 0b100 ∧ classOf ack = .fault ∨
      (ack.setWidth 4).toNat ∈ [0, 3, 5, 6, 7] ∧ classOf ack = .protocolError ack := by
  revert ack; decide

theorem finishOk_ret (s : State) : (finishOk s).ret = some (.transfer s.work.res s.rdata) := rfl

theorem finishError_ret (s : State) : (finishError s).ret = some (.transfer s.work.res none) := rfl

theorem checkParity_res (s : State) : (checkParity s).work.res = .ok ∨ (checkParity s).work.res = .parityError := by
  unfold checkParity readParBit
  dsimp only
  split
  · exact .inl rfl
  · exact .inr rfl

/-- An acknowledged read returns a word exactly when its parity is good (R137, R146). -/
theorem okRead_ret {s : State} (hrnw : s.rnw = true) :
    (∃ w, (okRead s).ret = some (.transfer .ok (some w))) ∨ (okRead s).ret = some (.transfer .parityError none) := by
  have hreq := (req_kept s.work.req).checkParity_kept ((req_kept _).readData_kept rfl)
  rw [okRead, finishOk_ret]
  simp only [State.rdata, State.rnw, idleCycles_work, turnaround2Read_work, hreq]
  rcases checkParity_res (readData s) with hres | hres
  · exact .inl ⟨_, by rw [hres, if_pos ⟨hrnw, rfl⟩]⟩
  · exact .inr (by rw [hres, if_neg (by simp)])

theorem okWrite_ret {s : State} (hrnw : s.rnw = false) : (okWrite s).ret = some (.transfer .ok none) := by
  have hturn : (turnaround2Write s).work.req = s.work.req := by simp [turnaround2Write, repeatN_clockCycle]
  have hreq := (req_kept s.work.req).writeParity_kept ((req_kept _).writeData_kept hturn)
  have hres : (writeParity (writeData (turnaround2Write s))).work.res = .ok := rfl
  rw [okWrite, finishOk_ret]
  simp only [State.rdata, State.rnw, idleCycles_work, hreq, hres]
  rw [if_neg (by simpa [State.rnw] using hrnw)]

/-- Without an OK the class is that of the acknowledgement, and there is no word (R147, R148). -/
theorem recoverWaitFault_ret (s : State) : (recoverWaitFault s).ret = some (.transfer (classOf s.work.ack) none) := by
  simp [recoverWaitFault, finishError_ret, resFromAck]

theorem recoverProtocolError_ret (s : State) : (recoverProtocolError s).ret = some (.transfer (classOf s.work.ack) none) := by
  simp [recoverProtocolError, finishError_ret, resFromAck, repeatN_clockCycle]

theorem branchOnAck_ret (f : State → State) (s : State) :
    (branchOnAck f s).ret = if classOf s.work.ack = .ok then (f s).ret else some (.transfer (classOf s.work.ack) none) := by
  unfold branchOnAck
  cases hc : classOf s.work.ack with
  | ok => rfl
  | wait | fault => simp [recoverWaitFault_ret, hc]
  | parityError | protocolError => simp [recoverProtocolError_ret, hc]

theorem classOf_eq_ok {ack : BitVec 3} (h : classOf ack = .ok) : ack = 0b001 := by
  revert ack; decide

theorem transferRead_ret (req : BitVec 4) (s : State) :
    (transferRead req s).ret = if classOf (ackAhead s) = .ok then (okRead (requestAndAck (setReq req s))).ret
      else some (.transfer (classOf (ackAhead s)) none) := by
  rw [transferRead, branchOnAck_ret, requestAndAck_ack]
  rfl

theorem transferWrite_ret (req : BitVec 4) (w : Word) (s : State) :
    (transferWrite req w s).ret = if classOf (ackAhead s) = .ok then (okWrite (requestAndAck (setData w (setReq req s)))).ret
      else some (.transfer (classOf (ackAhead s)) none) := by
  rw [transferWrite, branchOnAck_ret, requestAndAck_ack]
  rfl

/-- The four ways a transfer returns: the class of an acknowledgement that is not OK; a word; a parity error; OK without a
word. -/
theorem exec_transfer_ret {i : Instr} {s t : State} (hi : (∃ req, i = .transferRd req) ∨ ∃ req w, i = .transferWr req w)
    (he : exec i s = .next t) :
    (classOf (ackAhead s) ≠ .ok ∧ t.ret = some (.transfer (classOf (ackAhead s)) none)) ∨
    (ackAhead s = 0b001 ∧ (∃ req, i = .transferRd req) ∧ ∃ w, t.ret = some (.transfer .ok (some w))) ∨
    (ackAhead s = 0b001 ∧ (∃ req, i = .transferRd req) ∧ t.ret = some (.transfer .parityError none)) ∨
    (ackAhead s = 0b001 ∧ (¬ ∃ req, i = .transferRd req) ∧ t.ret = some (.transfer .ok none)) := by
  by_cases hok : classOf (ackAhead s) = .ok
  · have hack := classOf_eq_ok hok
    rcases hi with ⟨req, rfl⟩ | ⟨req, w, rfl⟩
    · obtain ⟨-, -, hdir, rfl⟩ := execTransferRd_next.mp he
      have hrnw : (requestAndAck (setReq req s)).rnw = true := by rw [State.rnw, requestAndAck_req]; exact hdir
      rw [transferRead_ret, if_pos hok]
      rcases okRead_ret hrnw with hword | hparity
      · exact .inr (.inl ⟨hack, ⟨req, rfl⟩, hword⟩)
      · exact .inr (.inr (.inl ⟨hack, ⟨req, rfl⟩, hparity⟩))
    · obtain ⟨-, -, hdir, rfl⟩ := execTransferWr_next.mp he
      have hrnw : (requestAndAck (setData w (setReq req s))).rnw = false := by rw [State.rnw, requestAndAck_req]; exact hdir
      rw [transferWrite_ret, if_pos hok]
      exact .inr (.inr (.inr ⟨hack, nofun, okWrite_ret hrnw⟩))
  · refine .inl ⟨hok, ?_⟩
    rcases hi with ⟨req, rfl⟩ | ⟨req, w, rfl⟩
    · obtain ⟨-, -, -, rfl⟩ := execTransferRd_next.mp he
      rw [transferRead_ret, if_neg hok]
    · obtain ⟨-, -, -, rfl⟩ := execTransferWr_next.mp he
      rw [transferWrite_ret, if_neg hok]

/-- Settles O45: each way a transfer returns fixes the class and the word, and each acknowledgement its class. -/
theorem resultCodes : Obligations.ResultCodes := by
  intro i s t c d hi he hret
  rcases exec_transfer_ret hi he with ⟨hne, hclass⟩ | ⟨hack, hread, w, hword⟩ | ⟨hack, hread, hparity⟩ | ⟨hack, hwrite, hnone⟩
  · cases hret.symm.trans hclass
    refine ⟨by simp [hne], ?_⟩
    rcases classOf_cases (ackAhead s) with ⟨-, hc⟩ | ⟨hack, hc⟩ | ⟨hack, hc⟩ | ⟨hcode, hc⟩
    · exact absurd hc hne
    · rw [hc]; exact ⟨rfl, hack⟩
    · rw [hc]; exact ⟨rfl, hack⟩
    · rw [hc]; exact ⟨rfl, hcode⟩
  · cases hret.symm.trans hword
    exact ⟨by simpa using hread, rfl, hack⟩
  · cases hret.symm.trans hparity
    exact ⟨by simp, rfl, hack, hread⟩
  · cases hret.symm.trans hnone
    exact ⟨by simpa using hwrite, rfl, hack⟩

end Sys2Proof.Machine
end

section
/-! PROOFS. The three micro-operations in closed form, and the clock they and everything written with them drive
(40_bit_primitives.md R100 to R103). -/

namespace Sys2Proof.Machine

/-! ### each micro-operation whole: its events and its pins, and nothing else -/

theorem writeBit_eq (v : Bit) (s : State) :
    writeBit v s = { s with pins := { s.pins with dioO := v, clk := true }, trace := s.trace ++ writeEvents v } := by
  rw [← writeBit_trace]; rfl

theorem readBit_snd_eq (s : State) :
    (readBit s).2 = { s with
      pins := { s.pins with clk := true }
      trace := s.trace ++ readEvents (nextSample s)
      script := s.script.tail
      samples := s.samples + 1 } := by
  rw [← readBit_trace]; rfl

theorem clockCycle_eq (s : State) :
    clockCycle s = { s with pins := { s.pins with clk := true }, trace := s.trace ++ [.k0, .k1] } := by
  rw [← clockCycle_trace]; rfl

/-- Settles O11: the word decodes, and the operation is `writeBit_eq` with nothing returned. -/
theorem writeBitEffect : Obligations.WriteBitEffect :=
  fun v s => ⟨decodeUop_writeBit v, congrArg (Host.Outcome.next ∘ returned .nothing) (writeBit_eq v s)⟩

/-- Settles O12: the operation is `readBit_snd_eq` with the next sample returned, which is the first of the samples ahead. -/
theorem readBitEffect : Obligations.ReadBitEffect := by
  refine fun s => ⟨by decide, ?_⟩
  rw [← nextSample_eq_sampleAt, List.drop_one, ← readBit_fst]
  exact congrArg (Host.Outcome.next ∘ returned (.bit (readBit s).1)) (readBit_snd_eq s)

/-- Settles O13: the operation is `clockCycle_eq` with nothing returned. -/
theorem clockCycleEffect : Obligations.ClockCycleEffect :=
  fun s => ⟨by decide, congrArg (Host.Outcome.next ∘ returned .nothing) (clockCycle_eq s)⟩

/-! ### the clock alternates -/

/-- Events after a run that alternates go on from a high clock, where the run has ended. -/
theorem clockAlternates_append {level : Bit} {evs : List PinEvent} (h : clockAlternates level evs = true)
    (new : List PinEvent) : clockAlternates level (evs ++ new) = clockAlternates true new := by
  induction evs generalizing level with
  | nil => exact congrArg (clockAlternates · new) h
  | cons e evs ih =>
    cases e with
    | k0 | k1 =>
      obtain ⟨hlevel, hrest⟩ := Bool.and_eq_true_iff.mp h
      exact (congrArg₂ _ hlevel (ih hrest)).trans (Bool.true_and _)
    | d | s | dir => exact ih h

theorem clockAlternates_dirEvents (p : Config.Params) (way : Dir) : clockAlternates true (dirEvents p way) = true := by
  unfold dirEvents
  split <;> rfl

/-- The clock is high in `t`, and the events since `s₀` make it alternate from a high clock on. -/
structure ClockAlternatesSince (s₀ t : State) : Prop where
  clkHigh : t.pins.clk = true
  alternates : ∃ evs, t.trace = s₀.trace ++ evs ∧ clockAlternates true evs = true

theorem ClockAlternatesSince.refl {s : State} (h : s.pins.clk = true) : ClockAlternatesSince s s := ⟨h, [], by simp, rfl⟩

/-- A state with more events, which alternate and leave the clock high, still alternates. -/
theorem ClockAlternatesSince.append {s₀ t t' : State} (h : ClockAlternatesSince s₀ t) {new : List PinEvent}
    (ht : t'.trace = t.trace ++ new) (hnew : clockAlternates true new = true) (hclk : t'.pins.clk = true) :
    ClockAlternatesSince s₀ t' := by
  obtain ⟨-, evs, htrace, halt⟩ := h
  exact ⟨hclk, evs ++ new, by rw [ht, htrace, List.append_assoc], by rw [clockAlternates_append halt, hnew]⟩

/-- The clock is written by the three micro-operations only, each of which is `K0` and then `K1`. -/
theorem clockAlternatesSince_kept (s₀ : State) : KeptByOperations (ClockAlternatesSince s₀) where
  mapWork_kept _ _ h := { h with }
  writeBit_kept b h := h.append (writeBit_trace b _) rfl rfl
  readBit_kept h := h.append (readBit_trace _) rfl rfl
  clockCycle_kept h := h.append (clockCycle_trace _) rfl rfl
  setPhase_kept _ h := { h with }
  setDio_kept b h := h.append (setDio_trace b _) rfl h.clkHigh
  setDir_kept way h := h.append (setDir_trace way _) (clockAlternates_dirEvents _ way) (by simpa using h.clkHigh)
  setReq_kept _ h := { h with }
  setCnt_kept _ h := { h with }
  finish_kept _ h := { h with }
  returned_kept _ h := { h with }

/-- Settles O14: every primitive keeps the alternation, so every operation does. -/
theorem clockAlternatesAndRestsHigh : Obligations.ClockAlternatesAndRestsHigh := by
  intro i s t hclk he
  obtain ⟨hhigh, halt⟩ := (clockAlternatesSince_kept s).exec_kept (fun _ h => { h with }) (fun _ _ _ _ h => { h with })
    (fun _ _ _ h => { h with }) (.refl hclk) he
  exact ⟨hhigh, halt⟩

end Sys2Proof.Machine
end

section
/-! PROOFS. What an output sequence changes and what it leaves unchanged (41_sequence.md R110, R111). -/

namespace Sys2Proof.Machine

/-- The direction written, with its event; every other field is left. -/
theorem setDir_eq (way : Dir) (s : State) :
    setDir way s = { s with pins := { s.pins with dioDir := dirAfter s way }, trace := s.trace ++ dirEvents s.params way } := by
  cases hd : s.params.hasDir <;> simp [setDir, dirAfter, dirEvents, hd]

theorem beginSeq_eq (p : Phase) (way : Dir) (n : Nat) (s : State) :
    beginSeq p way n s =
      { s with pins := { s.pins with dioDir := dirAfter s way }
               phase := p
               work := { s.work with nbits := n, bidx := 0, k := 0 }
               trace := s.trace ++ dirEvents s.params way } := by
  simp only [beginSeq, setDir_eq]; rfl

/-- An output sequence as one update of the state it starts in, whatever SRC supplies. -/
theorem sequenceOut_effect (n : Nat) (s : State) : ∃ work cnt draws, sequenceOut n s =
    { s with pins := { clk := if n = 0 then s.pins.clk else true
                       dioO := if n = 0 then s.pins.dioO else seqBit (loadedByte s) (n - 1)
                       dioDir := dirAfter s .host }
             phase := .idle, cnt := cnt, work := work, draws := draws
             ret := some .nothing
             trace := s.trace ++ dirEvents s.params .host ++ (seqBits (loadedByte s) n).flatMap writeEvents
             accesses := s.accesses ++ (List.range (ceil8 n)).map fun j =>
               .read j ((s.trace ++ dirEvents s.params .host).length + 24 * j) } := by
  refine ⟨(sequenceOut n s).work, (sequenceOut n s).cnt, (sequenceOut n s).draws, ?_⟩
  rw [sequenceOut_eq, afterOutput, loadedByte_beginSeq, beginSeq_eq]
  rfl

/-- A supplied buffer is loaded as it is. -/
theorem seqBit_loadedByte {s : State} {bytes : Nat → Byte} {n i : Nat}
    (hsrc : ∀ j, j < ceil8 n → s.src.read j = some (bytes j)) (hi : i < n) : seqBit (loadedByte s) i = seqBit bytes i := by
  rw [seqBit, seqBit, loadedByte_of_read (hsrc (i / 8) (by unfold ceil8; omega))]

theorem seqBits_loadedByte {s : State} {bytes : Nat → Byte} {n : Nat}
    (hsrc : ∀ j, j < ceil8 n → s.src.read j = some (bytes j)) : seqBits (loadedByte s) n = seqBits bytes n :=
  seqBits_congr fun _ => seqBit_loadedByte hsrc

/-- Settles O15: the bytes that the closed form of the output loop loads are those of the buffer. -/
theorem genSeqEffect : Obligations.GenSeqEffect := by
  intro count s bytes hidle hcount hsrc
  obtain ⟨work, cnt, draws, hrun⟩ := sequenceOut_effect count.toNat s
  refine ⟨work, cnt, draws, ?_⟩
  rw [exec_output hidle (.inl ⟨count, rfl, rfl, hcount⟩), hrun, seqBits_loadedByte hsrc]
  by_cases h0 : count.toNat = 0
  · simp only [h0, if_true]
  · simp only [h0, if_false, seqBit_loadedByte hsrc (show count.toNat - 1 < count.toNat by omega)]

/-- What `XCHG_SEQ` refuses of its info byte: bit 6 always, and what a narrower count field leaves free (log 5). -/
theorem infoReserved_of_refused {p : Config.Params} {info : BitVec 8}
    (h : info.getLsbD 6 = true ∨ (Instr.xchgSeqOut info).legal p = false) : infoReserved p info = true := by
  rcases h with h6 | hlegal
  · exact infoReserved_of_bit6 p h6
  · by_contra hres
    rw [(infoReserved_eq_false p info).mp (Bool.eq_false_iff.mpr hres)] at hlegal
    cases hlegal

/-- Settles O16: the tests refuse the reserved bits, and what passes them is an output sequence of at least one bit. -/
theorem xchgSeqOutEffect : Obligations.XchgSeqOutEffect := by
  intro info s bytes hidle hdir
  refine ⟨fun h => ?_, fun hlegal hsrc => ?_⟩
  · show execXchgSeqOut info s = _
    rw [execXchgSeqOut, whenIdle_idle hidle, infoReserved_of_refused h, refuseIf_true]
  · obtain ⟨hpos, -⟩ := xchgCount_range s.params info
    have hexec : exec (.xchgSeqOut info) s = .next (sequenceOut (xchgCount s.params info) s) :=
      execXchgSeqOut_next.mpr ⟨hidle, (infoReserved_eq_false _ _).mpr hlegal, hdir, rfl⟩
    obtain ⟨work, cnt, draws, hrun⟩ := sequenceOut_effect (xchgCount s.params info) s
    refine ⟨work, cnt, draws, ?_⟩
    rw [hexec, hrun, seqBits_loadedByte hsrc, seqBit_loadedByte hsrc (Nat.sub_lt hpos Nat.one_pos),
      if_neg (Nat.ne_of_gt hpos), if_neg (Nat.ne_of_gt hpos)]

/-- Settles O17: both run the output sequence of the same count, which nine bits hold; a busy engine refuses both. -/
theorem xchgSeqOutIsGenSeqOfItsCount : Obligations.XchgSeqOutIsGenSeqOfItsCount := by
  intro info s hwf hlegal hmax
  have hcount : (BitVec.ofNat 9 (xchgCount s.params info)).toNat = xchgCount s.params info := by
    have := xchgCount_range s.params info
    rw [BitVec.toNat_ofNat]; omega
  cases hbusy : s.busy with
  | true => rw [exec_busy rfl hbusy, exec_busy rfl hbusy]
  | false => rw [exec_output hbusy (.inr ⟨info, rfl, hwf, hlegal, rfl⟩), exec_output hbusy (.inl ⟨_, rfl, hcount, hmax⟩)]

end Sys2Proof.Machine
end

section
/-! PROOFS. What a capture changes and what it leaves unchanged (41_sequence.md R112). -/

namespace Sys2Proof.Machine

theorem samplesFrom_beginSeq (p : Phase) (way : Dir) (m n : Nat) (s : State) :
    samplesFrom (beginSeq p way m s) n = samplesFrom s n :=
  List.map_congr_left fun i _ => sampleAt_congr (setDir_script ..) (setDir_samples ..) i

/-- A capture of at least one bit as one update of the state it starts in. -/
theorem sequenceIn_effect {n : Nat} (hn : 1 ≤ n) (s : State) : ∃ work cnt draws, sequenceIn n s =
    { s with pins := { clk := true, dioO := s.pins.dioO, dioDir := dirAfter s .target }
             phase := .idle, cnt := cnt, work := work, draws := draws
             ret := some (.captured (ceil8 n))
             trace := s.trace ++ dirEvents s.params .target ++ (samplesFrom s n).flatMap readEvents
             script := s.script.drop n
             samples := s.samples + n
             dst := (sequenceIn n s).dst
             accesses := s.accesses ++ (List.range (ceil8 n)).map fun j =>
               .write j (capturedByte s n j) ((s.trace ++ dirEvents s.params .target).length + 3 * min (8 * (j + 1)) n) } := by
  obtain ⟨byte, hrun⟩ := sequenceIn_eq n s
  refine ⟨(sequenceIn n s).work, (sequenceIn n s).cnt, (sequenceIn n s).draws, ?_⟩
  simp only [hrun, captureState, capturedByte_beginSeq, samplesFrom_beginSeq, if_neg (Nat.ne_of_gt hn)]
  rw [beginSeq_eq]
  rfl

/-- Settles O20: the tests refuse the reserved bits, and the closed form of the capture loop gives what passes them. -/
theorem xchgSeqInEffect : Obligations.XchgSeqInEffect := by
  intro info s hidle hdir
  refine ⟨fun h => ?_, fun hlegal => ?_⟩
  · show execXchgSeqIn info s = _
    rw [execXchgSeqIn, whenIdle_idle hidle, infoReserved_of_refused h, refuseIf_true]
  · have hexec : exec (.xchgSeqIn info) s = .next (sequenceIn (xchgCount s.params info) s) :=
      execXchgSeqIn_next.mpr ⟨hidle, (infoReserved_eq_false _ _).mpr hlegal, hdir, rfl⟩
    obtain ⟨work, cnt, draws, hrun⟩ := sequenceIn_effect (xchgCount_range s.params info).1 s
    exact ⟨work, cnt, draws, _, by rw [hexec, ← hrun], fun j hj => by rw [sequenceIn_dst_read, if_pos hj],
      fun j hj => by rw [sequenceIn_dst_read, if_neg (Nat.not_lt.mpr hj)]⟩

end Sys2Proof.Machine
end

section
/-! PROOFS. An output sequence and a capture of its bits over a loopback line (41_sequence.md R114, 92_eei_decisions.md D22). -/

namespace Sys2Proof.Machine

/-- A direction event drives no bit. -/
theorem drivenBits_dirEvents (p : Config.Params) (way : Dir) (evs : List PinEvent) :
    drivenBits (dirEvents p way ++ evs) = drivenBits evs := by
  unfold dirEvents
  split <;> rfl

/-- What an output sequence drives is its bits, in order. -/
theorem drivenBits_sequenceOut (n : Nat) (s : State) :
    drivenBits ((sequenceOut n s).trace.drop s.trace.length) = seqBits (loadedByte s) n := by
  rw [sequenceOut_trace, List.append_assoc, List.drop_left, drivenBits_dirEvents, drivenBits_writes]

theorem sequenceOut_params (n : Nat) (s : State) : (sequenceOut n s).params = s.params := by
  obtain ⟨_, _, _, hrun⟩ := sequenceOut_effect n s
  rw [hrun]

/-- The samples ahead are those of the script while it lasts. -/
theorem sampleAt_seqBits {t : State} {bytes : Nat → Byte} {n i : Nat} (hscript : t.script = seqBits bytes n) (hi : i < n) :
    sampleAt t i = seqBit bytes i := by
  simp [sampleAt, hscript, seqBits, hi]

/-- A capture of the first `n` bits of a buffer holds those bits, and zeros above. -/
theorem capturedByte_getLsbD_of_script {t : State} {bytes : Nat → Byte} {n j m : Nat} (hscript : t.script = seqBits bytes n)
    (hm : m < 8) : (capturedByte t n j).getLsbD m = (decide (8 * j + m < n) && (bytes j).getLsbD m) := by
  rw [capturedByte_getLsbD t n j hm, capturedBit]
  by_cases hlt : 8 * j + m < n
  · rw [sampleAt_seqBits hscript hlt, seqBit, show (8 * j + m) / 8 = j by omega, show (8 * j + m) % 8 = m by omega]
  · simp [hlt]

theorem capturedByte_full {t : State} {bytes : Nat → Byte} {n j : Nat} (hscript : t.script = seqBits bytes n)
    (hj : j < n / 8) : capturedByte t n j = bytes j := by
  apply BitVec.eq_of_getLsbD_eq
  intro m hm
  simp [capturedByte_getLsbD_of_script hscript hm, show 8 * j + m < n by omega]

theorem capturedByte_partial {t : State} {bytes : Nat → Byte} {n : Nat} (hscript : t.script = seqBits bytes n) :
    capturedByte t n (n / 8) = bytes (n / 8) &&& BitVec.ofNat 8 (2 ^ (n % 8) - 1) := by
  apply BitVec.eq_of_getLsbD_eq
  intro m hm
  rw [capturedByte_getLsbD_of_script hscript hm, BitVec.getLsbD_and, BitVec.getLsbD_ofNat, Nat.testBit_two_pow_sub_one,
    Bool.and_comm]
  simp [hm, show 8 * (n / 8) + m < n ↔ m < n % 8 by omega]

/-- Settles O23: the capture's script is the bits of the sequence, so each byte captured is a byte sent. -/
theorem loopbackRoundTrip : Obligations.LoopbackRoundTrip := by
  intro i info n s bytes hidle _ _ hi hwf hlegal hcount hsrc
  have hparams := sequenceOut_params n s
  set t := { sequenceOut n s with script := drivenBits ((sequenceOut n s).trace.drop s.trace.length) }
  have hscript : t.script = seqBits bytes n := (drivenBits_sequenceOut n s).trans (seqBits_loadedByte hsrc)
  have hrun : exec (.xchgSeqIn info) t = .next (sequenceIn n t) := by
    have hexec := exec_xchgSeqIn (s := t) rfl hwf (hparams ▸ hlegal)
    rwa [show t.params = s.params from hparams, hcount] at hexec
  refine ⟨_, _, exec_output hidle hi, hrun, fun j hj => ?_, fun hpart => ?_⟩
  · rw [sequenceIn_dst_read, if_pos (by unfold ceil8; omega), capturedByte_full hscript hj]
  · rw [sequenceIn_dst_read, if_pos (by unfold ceil8; omega), capturedByte_partial hscript]

end Sys2Proof.Machine
end

section
/-! PROOFS. The sequences neither read nor write the configuration (41_sequence.md R115). -/

namespace Sys2Proof.Machine

/-- `u` is `s` with the configuration `c`. -/
def SameButCfg (c : Cfg) (s u : State) : Prop := u = { s with cfg := c }

theorem beginSeq_sameButCfg (c : Cfg) (p : Phase) (way : Dir) (n : Nat) (s : State) :
    SameButCfg c (beginSeq p way n s) (beginSeq p way n { s with cfg := c }) := by
  rw [SameButCfg, beginSeq_eq, beginSeq_eq]; rfl

theorem outBit_sameButCfg {c : Cfg} {s u : State} (h : SameButCfg c s u) : SameButCfg c (outBit s) (outBit u) := by
  obtain rfl := h
  unfold SameButCfg outBit loadByte
  by_cases hk : s.work.k = 0
  · simp only [hk, if_true]; rfl
  · simp only [hk, if_false]; rfl

theorem inBit_sameButCfg {c : Cfg} {s u : State} (h : SameButCfg c s u) : SameButCfg c (inBit s) (inBit u) := by
  obtain rfl := h
  have hcapture : captureBit (clearByte { s with cfg := c }) = { captureBit (clearByte s) with cfg := c } := by
    by_cases hk : s.work.k = 0
    · simp only [clearByte, hk, if_true]; rfl
    · simp only [clearByte, hk, if_false]; rfl
  unfold SameButCfg inBit
  rw [hcapture]
  generalize captureBit (clearByte s) = v
  by_cases hstore : v.work.k = 0 ∨ v.work.nbits = 0
  · simp only [storeByte, hstore, if_true]; rfl
  · simp only [storeByte, hstore, if_false]

theorem sequenceOut_withCfg (c : Cfg) (n : Nat) (s : State) :
    sequenceOut n { s with cfg := c } = { sequenceOut n s with cfg := c } := by
  have hbits : SameButCfg c _ _ := repeatN_rel outBit_sameButCfg n (beginSeq_sameButCfg c .seqOut .host n s)
  rw [sequenceOut, hbits]; rfl

theorem sequenceIn_withCfg (c : Cfg) (n : Nat) (s : State) :
    sequenceIn n { s with cfg := c } = { sequenceIn n s with cfg := c } := by
  have hbits : SameButCfg c _ _ := repeatN_rel inBit_sameButCfg n (beginSeq_sameButCfg c .seqIn .target n s)
  rw [sequenceIn, hbits]; rfl

/-- The three forms of R115. -/
def IsSequence (i : Instr) : Prop :=
  (∃ n, i = .genSeq n) ∨ (∃ o, i = .xchgSeqOut o) ∨ (∃ o, i = .xchgSeqIn o)

theorem exec_sequence_withCfg {i : Instr} (hi : IsSequence i) (c : Cfg) {s t : State} (he : exec i s = .next t) :
    exec i { s with cfg := c } = .next { t with cfg := c } := by
  rcases hi with ⟨count, rfl⟩ | ⟨info, rfl⟩ | ⟨info, rfl⟩
  · obtain ⟨hidle, hcount, rfl⟩ := execGenSeq_next.mp he
    exact execGenSeq_next.mpr ⟨hidle, hcount, sequenceOut_withCfg c _ s⟩
  · obtain ⟨hidle, hres, hdir, rfl⟩ := execXchgSeqOut_next.mp he
    exact execXchgSeqOut_next.mpr ⟨hidle, hres, hdir, sequenceOut_withCfg c _ s⟩
  · obtain ⟨hidle, hres, hdir, rfl⟩ := execXchgSeqIn_next.mp he
    exact execXchgSeqIn_next.mpr ⟨hidle, hres, hdir, sequenceIn_withCfg c _ s⟩

/-- A sequence returns nothing, or what it captured. -/
theorem exec_sequence_ret {i : Instr} (hi : IsSequence i) {s t : State} (he : exec i s = .next t) :
    t.ret = some .nothing ∨ ∃ k, t.ret = some (.captured k) := by
  rcases hi with ⟨count, rfl⟩ | ⟨info, rfl⟩ | ⟨info, rfl⟩
  · obtain ⟨-, -, rfl⟩ := execGenSeq_next.mp he; exact .inl rfl
  · obtain ⟨-, -, -, rfl⟩ := execXchgSeqOut_next.mp he; exact .inl rfl
  · obtain ⟨-, -, -, rfl⟩ := execXchgSeqIn_next.mp he; exact .inr ⟨_, rfl⟩

/-- Settles O25: a sequence runs alike under every configuration, and its cycles are those of R82. -/
theorem sequencesReadNoConfiguration : Obligations.SequencesReadNoConfiguration := by
  intro i s c hi
  refine ⟨fun t => exec_sequence_withCfg hi c, fun hidle hwf hlegal => ?_⟩
  have htransfer : ¬ (i.mnemonic = "TRANSFER.RD" ∨ i.mnemonic = "TRANSFER.WR") := by
    rcases hi with ⟨_, rfl⟩ | ⟨_, rfl⟩ | ⟨_, rfl⟩ <;> simp [Instr.mnemonic]
  obtain ⟨t, he⟩ := legalOperationsRun i s hwf hlegal (fun _ => hidle) fun h => absurd h htransfer
  exact ⟨t, he, frameLengths i s t he, exec_sequence_ret hi he⟩

end Sys2Proof.Machine
end

section
/-! PROOFS. The procedures of a transfer in closed form (42_transfer.md R131 to R141): each is one update of the state it starts
in. -/

namespace Sys2Proof.Machine

/-! ### the request and the first turnaround -/

theorem sendRequest_eq (s : State) : sendRequest s =
    { s with phase := .req
             pins := { clk := true, dioO := true, dioDir := dirAfter s .host }
             work := { s.work with par := parity s.work.req }
             trace := s.trace ++ dirEvents s.params .host ++ (packetBits s.work.req).flatMap writeEvents } := by
  simp [sendRequest, writeBitPar, writeBit_eq, foldPar, setPar, setDir_eq, setPhase, packetBits, parity, parityLow]
  rfl

theorem turnaround1_eq (s : State) : turnaround1 s =
    { s with phase := .trn1
             pins := { clk := if s.cfg.turnaround = 0 then s.pins.clk else true, dioO := true, dioDir := dirAfter s .target }
             trace := s.trace ++ [.d true] ++ dirEvents s.params .target ++ cycleEvents s.cfg.turnaround } := by
  simp only [turnaround1, repeatN_clockCycle, setDir_eq]
  rfl

/-- Settles O26: the procedure writes the eight bits one after the other, folding the request into `PAR`. -/
theorem requestPhaseSendsPacket : Obligations.RequestPhaseSendsPacket := sendRequest_eq

/-- Settles O28: with a cycle in it the turnaround leaves the clock high. -/
theorem firstTurnaround : Obligations.FirstTurnaround := by
  intro s hturn
  rw [turnaround1_eq, if_neg (Nat.ne_of_gt hturn)]

/-! ### the acknowledgement -/

/-- `READ_BIT`, with the bit it samples named as the first of the samples ahead. -/
theorem readBit_eq (s : State) : readBit s = (sampleAt s 0,
    { s with pins := { s.pins with clk := true }
             trace := s.trace ++ readEvents (sampleAt s 0)
             script := s.script.tail
             samples := s.samples + 1 }) := by
  rw [← nextSample_eq_sampleAt, ← readBit_snd_eq, ← readBit_fst]

/-- The samples ahead once `n` have been taken. -/
theorem sampleAt_drop {s t : State} {n : Nat} (hscript : t.script = s.script.drop n) (hsamples : t.samples = s.samples + n)
    (i : Nat) : sampleAt t i = sampleAt s (n + i) := by
  simp [sampleAt, hscript, hsamples, Nat.add_assoc]

theorem readAckBit_eq (i : Nat) (s : State) : readAckBit i s =
    { s with pins := { s.pins with clk := true }
             work := { s.work with ack := setBit s.work.ack i (sampleAt s 0) }
             trace := s.trace ++ readEvents (sampleAt s 0)
             script := s.script.drop 1
             samples := s.samples + 1 } := by
  rw [readAckBit, readBit_eq, List.drop_one]
  rfl

theorem sampleAck_eq (s : State) : sampleAck s =
    { s with phase := .ack
             pins := { s.pins with clk := true }
             work := { s.work with ack := ackAhead s }
             trace := s.trace ++ (samplesFrom s 3).flatMap readEvents
             script := s.script.drop 3
             samples := s.samples + 3 } := by
  have hfirst : sampleAt (setPhase .ack s) 0 = sampleAt s 0 := rfl
  have hsecond : sampleAt (readAckBit 0 (setPhase .ack s)) 0 = sampleAt s 1 := sampleAt_readAckBit ..
  have hthird : sampleAt (readAckBit 1 (readAckBit 0 (setPhase .ack s))) 0 = sampleAt s 2 := by
    rw [sampleAt_readAckBit, sampleAt_readAckBit]; rfl
  rw [sampleAck, readAckBit_eq 2, hthird, readAckBit_eq 1, hsecond, readAckBit_eq 0, hfirst]
  simp [setBit_three, ackAhead, samplesFrom, List.range_succ, setPhase]

/-! ### the acknowledgement's class -/

/-- Settles O30: the class of each of the eight patterns, and a line of one level spells 7 or 0. -/
theorem ackClassification : Obligations.AckClassification := by
  refine ⟨rfl, rfl, rfl, by decide, fun s level h => ?_⟩
  rw [ackAhead, h 0 (by decide), h 1 (by decide), h 2 (by decide)]
  cases level <;> rfl

/-! ### the data of a read -/

/-- Bits 0 to `n - 1` of a word, zeros above: `DATA` when `n` bits of the word are read. -/
def lowBits (w : Word) (n : Nat) : Word := (w.setWidth n).setWidth 32

theorem lowBits_zero (w : Word) : lowBits w 0 = 0 := by
  apply BitVec.eq_of_getLsbD_eq
  simp [lowBits]

theorem lowBits_full (w : Word) : lowBits w 32 = w := by simp [lowBits]

theorem setBit_lowBits (w : Word) {n : Nat} (hn : n < 32) : setBit (lowBits w n) n (w.getLsbD n) = lowBits w (n + 1) := by
  apply BitVec.eq_of_getLsbD_eq
  intro j hj
  rw [setBit_getLsbD _ _ _ _ hn]
  simp only [lowBits, BitVec.getLsbD_setWidth, hj, decide_true, Bool.true_and]
  by_cases hjn : j = n
  · simp [hjn]
  · simp [hjn, show j < n + 1 ↔ j < n by omega]

theorem forUp_succ_last (f : Nat → State → State) (n i : Nat) (s : State) :
    forUp f (n + 1) i s = f (i + n) (forUp f n i s) := by
  induction n generalizing i s with
  | zero => rfl
  | succ n ih => rw [forUp_succ, ih, forUp_succ, Nat.add_right_comm, Nat.add_assoc]

/-- The state `n` bits into the data phase of a read of `w` that started in `s` (R136). -/
def afterDataRead (w : Word) (s : State) (n : Nat) : State :=
  { s with pins := { s.pins with clk := if n = 0 then s.pins.clk else true }
           work := { s.work with data := lowBits w n, par := parityLow w n }
           trace := s.trace ++ ((List.range n).map w.getLsbD).flatMap readEvents
           script := s.script.drop n
           samples := s.samples + n }

theorem readDataBit_afterDataRead {w : Word} {s : State} {n : Nat} (hn : n < 32) (hw : w.getLsbD n = sampleAt s n) :
    readDataBit n (afterDataRead w s n) = afterDataRead w s (n + 1) := by
  have hsample : sampleAt (afterDataRead w s n) 0 = w.getLsbD n := (sampleAt_drop rfl rfl 0).trans hw.symm
  simp only [readDataBit, readBit_eq, hsample]
  simp [afterDataRead, setDataBit, foldPar, setBit_lowBits w hn, parityLow, List.range_succ, Nat.add_assoc]

theorem forUp_readDataBit {w : Word} {s : State} {n : Nat} (hdata : s.work.data = 0) (hpar : s.work.par = false) (hn : n ≤ 32)
    (hw : ∀ i, i < 32 → w.getLsbD i = sampleAt s i) : forUp readDataBit n 0 s = afterDataRead w s n := by
  induction n with
  | zero =>
    rcases s with ⟨_, _, _, _, ⟨⟩, _⟩
    subst hdata hpar
    simp [afterDataRead, lowBits_zero, parityLow]
  | succ n ih => rw [forUp_succ_last, ih (by omega), Nat.zero_add, readDataBit_afterDataRead hn (hw n hn)]

theorem readData_eq {w : Word} {s : State} (hw : ∀ i, i < 32 → w.getLsbD i = sampleAt s i) : readData s =
    { s with phase := .rdata
             pins := { s.pins with clk := true }
             work := { s.work with data := w, par := parity w }
             trace := s.trace ++ (bitsOf w).flatMap readEvents
             script := s.script.drop 32
             samples := s.samples + 32 } := by
  have hloop := forUp_readDataBit (s := setPar false (setData 0 (setPhase .rdata s))) rfl rfl (Nat.le_refl 32) hw
  rw [readData, Config.dataBits, hloop, afterDataRead, lowBits_full]
  rfl

/-- Settles O31: the closed form of the loop after all of its turns. -/
theorem readDataPhase : Obligations.ReadDataPhase := fun _ _ => readData_eq

/-! ### the parity of a read -/

/-- Adding the parity bit of a word, or not, makes the number of ones even, or odd (R10). -/
theorem ones_append_even_iff (w : Word) (b : Bit) : ones (bitsOf w ++ [b]) % 2 = 0 ↔ b = parity w := by
  have hcount : ones (bitsOf w ++ [b]) = ones (bitsOf w) + b.toNat := by cases b <;> simp [ones]
  rw [hcount, parity_eq_ones_mod_two]
  cases b with
  | false => simp
  | true => simp; omega

theorem checkParity_eq {s : State} (hpar : s.work.par = parity s.work.data) : checkParity s =
    { s with phase := .rpar
             pins := { s.pins with clk := true }
             work := { s.work with res := if ones (bitsOf s.work.data ++ [sampleAt s 0]) % 2 = 0 then .ok else .parityError }
             trace := s.trace ++ readEvents (sampleAt s 0)
             script := s.script.drop 1
             samples := s.samples + 1 } := by
  have hsample : sampleAt (setPhase .rpar s) 0 = sampleAt s 0 := rfl
  have hcheck := ones_append_even_iff s.work.data (sampleAt s 0)
  rw [← hpar] at hcheck
  simp only [checkParity, readParBit, readBit_eq, hsample, setPhase_work, hcheck, List.drop_one]
  split <;> rfl

/-- Settles O32: the sampled bit is compared with the parity of the word, which decides whether the ones are even. -/
theorem readParityCheck : Obligations.ReadParityCheck := fun _ => checkParity_eq

/-! ### the data of a write -/

/-- The state `n` bits into the data phase of a write that started in `s` (R140). -/
def afterDataWritten (s : State) (n : Nat) : State :=
  { s with pins := { s.pins with clk := if n = 0 then s.pins.clk else true
                                 dioO := if n = 0 then s.pins.dioO else s.work.data.getLsbD (n - 1) }
           work := { s.work with par := parityLow s.work.data n }
           trace := s.trace ++ ((List.range n).map s.work.data.getLsbD).flatMap writeEvents }

theorem writeDataBit_afterDataWritten (s : State) (n : Nat) :
    writeDataBit n (afterDataWritten s n) = afterDataWritten s (n + 1) := by
  simp [writeDataBit, writeBitPar, writeBit_eq, afterDataWritten, foldPar, parityLow, List.range_succ]

theorem forUp_writeDataBit {s : State} (hpar : s.work.par = false) (n : Nat) :
    forUp writeDataBit n 0 s = afterDataWritten s n := by
  induction n with
  | zero =>
    rcases s with ⟨_, _, _, _, ⟨⟩, _⟩
    subst hpar
    simp [afterDataWritten, parityLow]
  | succ n ih => rw [forUp_succ_last, ih, Nat.zero_add, writeDataBit_afterDataWritten]

theorem writeParity_writeData_eq (s : State) : writeParity (writeData s) =
    { s with phase := .wpar
             pins := { s.pins with clk := true, dioO := parity s.work.data }
             work := { s.work with par := parity s.work.data, res := .ok }
             trace := s.trace ++ (bitsOf s.work.data ++ [parity s.work.data]).flatMap writeEvents } := by
  rw [writeData, forUp_writeDataBit rfl]
  simp only [writeParity, writeBit_eq, List.flatMap_append, ← List.append_assoc]
  rfl

/-- Settles O33: the parity of the word is the bit that makes its ones even, and the closed form of the loop ends with it. -/
theorem writeDataPhase : Obligations.WriteDataPhase :=
  fun s => ⟨_, rfl, (ones_append_even_iff s.work.data _).mpr rfl, writeParity_writeData_eq s⟩

end Sys2Proof.Machine
end

section
/-! PROOFS. The transfers whole (42_transfer.md R135 to R151): the opening and each branch in closed form, and what they make of
the state they start in. -/

namespace Sys2Proof.Machine

/-! ### the opening -/

theorem dirAfter_twice (s : State) (p : Phase) (w : Work) (way way' : Dir) (clk dioO : Bit) (evs : List PinEvent) :
    dirAfter { s with phase := p, work := w, pins := ⟨clk, dioO, dirAfter s way⟩, trace := evs } way' = dirAfter s way' := by
  simp only [dirAfter]
  split <;> rfl

/-- The request, the first turnaround and the acknowledgement (R130). -/
theorem requestAndAck_eq (s : State) : requestAndAck s =
    { s with phase := .ack
             pins := { clk := true, dioO := true, dioDir := dirAfter s .target }
             work := { s.work with par := parity s.work.req, ack := ackAhead s }
             trace := s.trace ++ openingTrace s.work.req s
             script := s.script.drop 3
             samples := s.samples + 3 } := by
  rw [requestAndAck, sampleAck_eq, turnaround1_eq, sendRequest_eq, dirAfter_twice]
  simp only [openingTrace, List.append_assoc, ite_self]
  rfl

theorem requestAndAck_trace (s : State) : (requestAndAck s).trace = s.trace ++ openingTrace s.work.req s := by
  rw [requestAndAck_eq]

/-- Settles O29: the procedure is its closed form, before and after a turnaround, and what follows it adds events only. -/
theorem ackSamplesThreeBits : Obligations.AckSamplesThreeBits := by
  refine ⟨sampleAck_eq, fun s => by rw [sampleAck_eq, turnaround1_eq]; rfl, fun i req s t hi he => ?_⟩
  have hbranch {f : State → State} {u : State} (hok : RecordsExtend u (f u)) : u.trace <+: (branchOnAck f u).trace :=
    (branchOnAck_cases (Q := RecordsExtend u) hok ((recordsExtend_kept u).recoverWaitFault_kept (.refl u))
      ((recordsExtend_kept u).recoverProtocolError_kept (.refl u))).trace
  rcases hi with rfl | ⟨wdata, rfl⟩
  · obtain ⟨-, -, -, rfl⟩ := execTransferRd_next.mp he
    have hprefix := hbranch ((recordsExtend_kept (requestAndAck (setReq req s))).okRead_kept (.refl _))
    rwa [requestAndAck_trace] at hprefix
  · obtain ⟨-, -, -, rfl⟩ := execTransferWr_next.mp he
    have hprefix := hbranch ((recordsExtend_kept (requestAndAck (setData wdata (setReq req s)))).okWrite_kept (.refl _))
    rwa [requestAndAck_trace] at hprefix

/-! ### the end -/

/-- A transfer that ends: the events `evs` added, `n` samples taken, `r` returned, the line idle-high and driven. -/
def transferEnd (r : Return) (evs : List PinEvent) (n : Nat) (s : State) : State :=
  finish r { s with pins := { clk := true, dioO := true, dioDir := dirAfter s .host }
                    trace := s.trace ++ evs
                    script := s.script.drop n
                    samples := s.samples + n }

theorem transferEnd_of_clkHigh {s : State} (h : s.pins.clk = true) (r : Return) (evs : List PinEvent) (n : Nat) :
    transferEnd r evs n s = finish r
      { s with pins := { s.pins with dioO := true, dioDir := dirAfter s .host }
               trace := s.trace ++ evs
               script := s.script.drop n
               samples := s.samples + n } := by
  simp only [transferEnd, h]

/-- What a transfer started in `s` makes of it, told from the acknowledgement on, and told from the start. -/
theorem transferEnd_requestAndAck (r : Return) (evs : List PinEvent) (n : Nat) (s : State) :
    transferEnd r evs n (requestAndAck s) = transferEnd r (openingTrace s.work.req s ++ evs) (3 + n) s := by
  have hdir : dirAfter (requestAndAck s) .host = dirAfter s .host :=
    ((sameRecord_kept s).requestAndAck_kept (.refl s)).hostDir
  rw [transferEnd, hdir, requestAndAck_eq]
  simp only [transferEnd, List.append_assoc, List.drop_drop, Nat.add_assoc]
  rfl

/-! ### the procedures after the acknowledgement, which find the clock high -/

theorem clockCycles_of_clkHigh {s : State} (h : s.pins.clk = true) (n : Nat) :
    repeatN n clockCycle s = { s with trace := s.trace ++ cycleEvents n } := by
  have hclk : (if n = 0 then s.pins.clk else true) = s.pins.clk := by rw [h, ite_self]
  rw [repeatN_clockCycle, hclk]

theorem idleCycles_eq {s : State} (h : s.pins.clk = true) : idleCycles s =
    { s with phase := if s.cfg.idle = 0 then s.phase else .idlecyc
             pins := { s.pins with dioO := if s.cfg.idle = 0 then s.pins.dioO else false }
             trace := s.trace ++ idleTrace s } := by
  unfold idleCycles idleTrace
  by_cases hidle : s.cfg.idle = 0
  · simp [hidle]
  · have hrun := clockCycles_of_clkHigh (s := setDio false (setPhase .idlecyc s)) h s.cfg.idle
    rw [if_pos (Nat.pos_of_ne_zero hidle)]
    exact hrun.trans (by simp [hidle, setDio, setPhase])

theorem turnaround2Read_eq {s : State} (h : s.pins.clk = true) : turnaround2Read s =
    { s with phase := .trn2Rd
             pins := { s.pins with dioO := true, dioDir := dirAfter s .host }
             trace := s.trace ++ cycleEvents s.cfg.turnaround ++ dirEvents s.params .host ++ [.d true] } := by
  rw [turnaround2Read, clockCycles_of_clkHigh (by exact h), setDir_eq]
  rfl

theorem turnaround2Write_eq {s : State} (h : s.pins.clk = true) : turnaround2Write s =
    { s with phase := .trn2Wr
             pins := { s.pins with dioDir := dirAfter s .host }
             trace := s.trace ++ cycleEvents s.cfg.turnaround ++ dirEvents s.params .host } := by
  rw [turnaround2Write, clockCycles_of_clkHigh (by exact h), setDir_eq]
  rfl

theorem turnaround2Error_eq {s : State} (h : s.pins.clk = true) : turnaround2Error s =
    { s with phase := .trn2Err
             pins := { s.pins with dioDir := dirAfter s .host }
             trace := s.trace ++ cycleEvents s.cfg.turnaround ++ dirEvents s.params .host } := by
  rw [turnaround2Error, clockCycles_of_clkHigh (by exact h), setDir_eq]
  rfl

theorem dummyRead_of_read {s : State} (h : s.pins.clk = true) (hrnw : s.rnw = true) : dummyRead s =
    { s with phase := if s.cfg.dataPhase then .dummyRd else s.phase
             trace := s.trace ++ if s.cfg.dataPhase then cycleEvents 33 else [] } := by
  cases hd : s.cfg.dataPhase with
  | false => simp [dummyRead, hd]
  | true =>
    have hrun := clockCycles_of_clkHigh (s := setPhase .dummyRd s) h 33
    rw [dummyRead, if_pos ⟨hd, hrnw⟩]
    exact hrun

theorem dummyRead_of_write {s : State} (hrnw : s.rnw = false) : dummyRead s = s := by simp [dummyRead, hrnw]

theorem dummyWrite_of_read {s : State} (hrnw : s.rnw = true) : dummyWrite s = s := by simp [dummyWrite, hrnw]

theorem dummyWrite_of_write {s : State} (h : s.pins.clk = true) (hrnw : s.rnw = false) : dummyWrite s =
    { s with phase := if s.cfg.dataPhase then .dummyWr else s.phase
             pins := { s.pins with dioO := if s.cfg.dataPhase then s.params.dummyWriteLevel else s.pins.dioO }
             trace := s.trace ++ if s.cfg.dataPhase then .d s.params.dummyWriteLevel :: cycleEvents 33 else [] } := by
  cases hd : s.cfg.dataPhase with
  | false => simp [dummyWrite, hd]
  | true =>
    have hrun := clockCycles_of_clkHigh (s := setDio s.params.dummyWriteLevel (setPhase .dummyWr s)) h 33
    rw [dummyWrite, if_pos ⟨hd, hrnw⟩]
    exact hrun.trans (by simp [setDio, setPhase])

theorem rdata_of_write {s : State} (h : s.rnw = false) : s.rdata = none := by simp [State.rdata, h]

theorem rdata_of_parityError {s : State} (h : s.work.res = .parityError) : s.rdata = none := by simp [State.rdata, h]

theorem rdata_of_ok {s : State} (hrnw : s.rnw = true) (hres : s.work.res = .ok) : s.rdata = some s.work.data := by
  simp [State.rdata, hrnw, hres]

/-! ### the branches -/

/-- The events after the acknowledgement of a read of `w` with the sampled parity bit `p` (R136 to R138, R145, R146). -/
def okReadTrace (w : Word) (p : Bit) (s : State) : List PinEvent :=
  (bitsOf w ++ [p]).flatMap readEvents ++ cycleEvents s.cfg.turnaround ++ dirEvents s.params .host ++ [.d true] ++
    idleTrace s ++ [.d true]

/-- Those of a write of `w` (R139 to R141, R145, R146). -/
def okWriteTrace (w : Word) (s : State) : List PinEvent :=
  cycleEvents s.cfg.turnaround ++ dirEvents s.params .host ++ (bitsOf w ++ [parity w]).flatMap writeEvents ++
    idleTrace s ++ [.d true]

/-- Those of a read answered WAIT or FAULT, the dummy block before the turnaround (R147). -/
def waitFaultReadTrace (s : State) : List PinEvent :=
  (if s.cfg.dataPhase then cycleEvents 33 else []) ++ cycleEvents s.cfg.turnaround ++ dirEvents s.params .host ++ [.d true]

/-- Those of a write answered WAIT or FAULT, the dummy block after the turnaround (R147, D15). -/
def waitFaultWriteTrace (s : State) : List PinEvent :=
  cycleEvents s.cfg.turnaround ++ dirEvents s.params .host ++
    (if s.cfg.dataPhase then .d s.params.dummyWriteLevel :: cycleEvents 33 else []) ++ [.d true]

/-- Those of the back-off (R148). -/
def backoffTrace (s : State) : List PinEvent :=
  cycleEvents (s.cfg.turnaround + 33) ++ dirEvents s.params .host ++ [.d true]

/-- What a read of `w` with the sampled parity bit `p` returns (R137, R146). -/
def readReturn (w : Word) (p : Bit) : Return :=
  if ones (bitsOf w ++ [p]) % 2 = 0 then .transfer .ok (some w) else .transfer .parityError none

theorem checkParity_readData_eq {w : Word} {s : State} (hw : ∀ i, i < 32 → w.getLsbD i = sampleAt s i) :
    checkParity (readData s) =
      { s with phase := .rpar
               pins := { s.pins with clk := true }
               work := { s.work with
                 data := w, par := parity w
                 res := if ones (bitsOf w ++ [sampleAt s 32]) % 2 = 0 then .ok else .parityError }
               trace := s.trace ++ (bitsOf w ++ [sampleAt s 32]).flatMap readEvents
               script := s.script.drop 33
               samples := s.samples + 33 } := by
  have hsample : sampleAt (readData s) 0 = sampleAt s 32 := by rw [readData_eq hw]; exact sampleAt_drop rfl rfl 0
  rw [checkParity_eq (by rw [readData_eq hw]), hsample, readData_eq hw]
  simp [List.flatMap_append]

theorem okRead_eq {w : Word} {s : State} (hrnw : s.rnw = true) (hw : ∀ i, i < 32 → w.getLsbD i = sampleAt s i) :
    okRead s = transferEnd (readReturn w (sampleAt s 32)) (okReadTrace w (sampleAt s 32) s) 33 s := by
  rw [okRead, checkParity_readData_eq hw, turnaround2Read_eq rfl, idleCycles_eq rfl, transferEnd, readReturn,
    okReadTrace]
  by_cases heven : ones (bitsOf w ++ [sampleAt s 32]) % 2 = 0
  · simp only [heven, if_true, ← List.append_assoc]
    rw [finishOk, rdata_of_ok (by exact hrnw) rfl]
    rfl
  · simp only [heven, if_false, ← List.append_assoc]
    rw [finishOk, rdata_of_parityError rfl]
    rfl

theorem okWrite_eq {s : State} (hclk : s.pins.clk = true) (hrnw : s.rnw = false) :
    okWrite s = transferEnd (.transfer .ok none) (okWriteTrace s.work.data s) 0 s := by
  rw [okWrite, turnaround2Write_eq hclk, writeParity_writeData_eq, idleCycles_eq rfl, transferEnd, okWriteTrace,
    finishOk, rdata_of_write (by exact hrnw)]
  simp only [← List.append_assoc]
  rfl

theorem recoverWaitFault_read_eq {s : State} (hclk : s.pins.clk = true) (hrnw : s.rnw = true) :
    recoverWaitFault s = transferEnd (.transfer (classOf s.work.ack) none) (waitFaultReadTrace s) 0 s := by
  rw [recoverWaitFault, dummyRead_of_read (s := resFromAck s) hclk hrnw, turnaround2Error_eq (by exact hclk),
    dummyWrite_of_read (by exact hrnw), transferEnd_of_clkHigh hclk]
  simp only [waitFaultReadTrace, ← List.append_assoc]
  rfl

theorem recoverWaitFault_write_eq {s : State} (hclk : s.pins.clk = true) (hrnw : s.rnw = false) :
    recoverWaitFault s = transferEnd (.transfer (classOf s.work.ack) none) (waitFaultWriteTrace s) 0 s := by
  rw [recoverWaitFault, dummyRead_of_write (s := resFromAck s) hrnw, turnaround2Error_eq (by exact hclk),
    dummyWrite_of_write (by exact hclk) (by exact hrnw), transferEnd_of_clkHigh hclk]
  simp only [waitFaultWriteTrace, ← List.append_assoc]
  rfl

theorem recoverProtocolError_eq {s : State} (hclk : s.pins.clk = true) :
    recoverProtocolError s = transferEnd (.transfer (classOf s.work.ack) none) (backoffTrace s) 0 s := by
  have hback : (setPhase .backoff (resFromAck s)).pins.clk = true := hclk
  rw [transferEnd_of_clkHigh hclk, recoverProtocolError, clockCycles_of_clkHigh hback, setDir_eq]
  simp only [backoffTrace, ← List.append_assoc]
  rfl

theorem branchOnAck_ok {f : State → State} {s : State} (h : classOf s.work.ack = .ok) : branchOnAck f s = f s := by
  simp [branchOnAck, h]

theorem branchOnAck_waitFault {f : State → State} {s : State} (h : classOf s.work.ack = .wait ∨ classOf s.work.ack = .fault) :
    branchOnAck f s = recoverWaitFault s := by
  rcases h with h | h <;> simp [branchOnAck, h]

theorem branchOnAck_protocolError {f : State → State} {s : State} {a : BitVec 3} (h : classOf s.work.ack = .protocolError a) :
    branchOnAck f s = recoverProtocolError s := by
  simp [branchOnAck, h]

/-! ### the transfers -/

theorem sampleAt_requestAndAck (s : State) (i : Nat) : sampleAt (requestAndAck s) i = sampleAt s (3 + i) := by
  rw [requestAndAck_eq]; exact sampleAt_drop rfl rfl i

/-- The direction of the request once it is acknowledged. -/
theorem requestAndAck_rnw (s : State) : (requestAndAck s).rnw = s.work.req.getLsbD 1 := by
  rw [State.rnw, requestAndAck_req]

variable {req : BitVec 4} {w : Word} {s : State}

theorem transferRead_ok (hrnw : req.getLsbD 1 = true) (hack : classOf (ackAhead s) = .ok) (hw : IsWordAhead s w) :
    transferRead req s = transferEnd (readReturn w (sampleAt s 35))
      (openingTrace req s ++ okReadTrace w (sampleAt s 35) s) 36 s := by
  have hclass : classOf (requestAndAck (setReq req s)).work.ack = .ok := by rw [requestAndAck_ack]; exact hack
  have hword (i : Nat) (hi : i < 32) : w.getLsbD i = sampleAt (requestAndAck (setReq req s)) i := by
    rw [sampleAt_requestAndAck]; exact hw i hi
  rw [transferRead, branchOnAck_ok hclass, okRead_eq (by rw [requestAndAck_rnw]; exact hrnw) hword,
    transferEnd_requestAndAck, sampleAt_requestAndAck, requestAndAck_eq]
  rfl

theorem transferWrite_ok (hrnw : req.getLsbD 1 = false) (hack : classOf (ackAhead s) = .ok) :
    transferWrite req w s = transferEnd (.transfer .ok none) (openingTrace req s ++ okWriteTrace w s) 3 s := by
  have hclass : classOf (requestAndAck (setData w (setReq req s))).work.ack = .ok := by rw [requestAndAck_ack]; exact hack
  rw [transferWrite, branchOnAck_ok hclass, okWrite_eq (requestAndAck_clk _) (by rw [requestAndAck_rnw]; exact hrnw),
    transferEnd_requestAndAck, requestAndAck_eq]
  rfl

theorem transferRead_waitFault (hrnw : req.getLsbD 1 = true)
    (hack : classOf (ackAhead s) = .wait ∨ classOf (ackAhead s) = .fault) :
    transferRead req s = transferEnd (.transfer (classOf (ackAhead s)) none)
      (openingTrace req s ++ waitFaultReadTrace s) 3 s := by
  rw [transferRead, branchOnAck_waitFault (by rw [requestAndAck_ack]; exact hack),
    recoverWaitFault_read_eq (requestAndAck_clk _) (by rw [requestAndAck_rnw]; exact hrnw),
    transferEnd_requestAndAck, requestAndAck_eq]
  rfl

theorem transferWrite_waitFault (hrnw : req.getLsbD 1 = false)
    (hack : classOf (ackAhead s) = .wait ∨ classOf (ackAhead s) = .fault) :
    transferWrite req w s = transferEnd (.transfer (classOf (ackAhead s)) none)
      (openingTrace req s ++ waitFaultWriteTrace s) 3 s := by
  rw [transferWrite, branchOnAck_waitFault (by rw [requestAndAck_ack]; exact hack),
    recoverWaitFault_write_eq (requestAndAck_clk _) (by rw [requestAndAck_rnw]; exact hrnw),
    transferEnd_requestAndAck, requestAndAck_eq]
  rfl

theorem transferRead_protocolError {a : BitVec 3} (hack : classOf (ackAhead s) = .protocolError a) :
    transferRead req s = transferEnd (.transfer (classOf (ackAhead s)) none) (openingTrace req s ++ backoffTrace s) 3 s := by
  rw [transferRead, branchOnAck_protocolError (by rw [requestAndAck_ack]; exact hack),
    recoverProtocolError_eq (requestAndAck_clk _), transferEnd_requestAndAck, requestAndAck_eq]
  rfl

theorem transferWrite_protocolError {a : BitVec 3} (hack : classOf (ackAhead s) = .protocolError a) :
    transferWrite req w s = transferEnd (.transfer (classOf (ackAhead s)) none) (openingTrace req s ++ backoffTrace s) 3 s := by
  rw [transferWrite, branchOnAck_protocolError (by rw [requestAndAck_ack]; exact hack),
    recoverProtocolError_eq (requestAndAck_clk _), transferEnd_requestAndAck, requestAndAck_eq]
  rfl

end Sys2Proof.Machine
end

section
/-! PROOFS. The statements about whole transfers (42_transfer.md R147 to R151): the closed forms, read field by field. -/

namespace Sys2Proof.Machine

theorem exec_transferRd {req : BitVec 4} {s : State} (hidle : s.busy = false) (hvalid : s.cfg.valid = true)
    (hrnw : req.getLsbD 1 = true) : exec (.transferRd req) s = .next (transferRead req s) :=
  execTransferRd_next.mpr ⟨hidle, hvalid, hrnw, rfl⟩

theorem exec_transferWr {req : BitVec 4} {w : Word} {s : State} (hidle : s.busy = false) (hvalid : s.cfg.valid = true)
    (hrnw : req.getLsbD 1 = false) : exec (.transferWr req w) s = .next (transferWrite req w s) :=
  execTransferWr_next.mpr ⟨hidle, hvalid, hrnw, rfl⟩

/-- The class of WAIT and of FAULT, from the pattern sampled. -/
theorem classOf_waitFault {a : BitVec 3} (h : a = 0b010 ∨ a = 0b100) :
    (classOf a = .wait ∨ classOf a = .fault) ∧ classOf a = if a = 0b010 then .wait else .fault := by
  rcases h with rfl | rfl <;> decide

/-- The three branches after the acknowledgement (R135). -/
theorem classOf_branches (a : BitVec 3) :
    classOf a = .ok ∨ (classOf a = .wait ∨ classOf a = .fault) ∨ classOf a = .protocolError a := by
  revert a; decide

/-- Settles O35: the closed form of an acknowledged read. -/
theorem transferReadOk : Obligations.TransferReadOk := by
  intro req w s hidle hvalid hrnw hack hw
  refine ⟨Work.free s.draws, 0, s.draws + 1, ?_⟩
  rw [exec_transferRd hidle hvalid hrnw, transferRead_ok hrnw (by rw [hack]; rfl) hw]
  simp only [transferEnd, okReadTrace, ← List.append_assoc]
  rfl

/-- Settles O36: the closed form of an acknowledged write. -/
theorem transferWriteOk : Obligations.TransferWriteOk := by
  intro req w s hidle hvalid hrnw hack
  refine ⟨Work.free s.draws, 0, s.draws + 1, ?_⟩
  rw [exec_transferWr hidle hvalid hrnw, transferWrite_ok hrnw (by rw [hack]; rfl)]
  simp only [transferEnd, okWriteTrace, ← List.append_assoc]
  rfl

/-- Settles O37: the closed form of the recovery of a read. -/
theorem transferReadWaitFault : Obligations.TransferReadWaitFault := by
  intro req s hidle hvalid hrnw hack
  obtain ⟨hclass, hres⟩ := classOf_waitFault hack
  refine ⟨Work.free s.draws, 0, s.draws + 1, ?_⟩
  rw [exec_transferRd hidle hvalid hrnw, transferRead_waitFault hrnw hclass, hres]
  simp only [transferEnd, waitFaultReadTrace, ← List.append_assoc]
  rfl

/-- Settles O38: the closed form of the recovery of a write. -/
theorem transferWriteWaitFault : Obligations.TransferWriteWaitFault := by
  intro req w s hidle hvalid hrnw hack
  obtain ⟨hclass, hres⟩ := classOf_waitFault hack
  refine ⟨Work.free s.draws, 0, s.draws + 1, ?_⟩
  rw [exec_transferWr hidle hvalid hrnw, transferWrite_waitFault hrnw hclass, hres]
  simp only [transferEnd, waitFaultWriteTrace, ← List.append_assoc]
  rfl

/-- Settles O39: the closed form of the back-off, the same in both directions. -/
theorem transferProtocolError : Obligations.TransferProtocolError := by
  intro i req s hi hwf hidle hvalid hok hwait hfault
  have hclass : classOf (ackAhead s) = .protocolError (ackAhead s) := ackClassification.2.2.2.1 _ hok hwait hfault
  have hexec : exec i s = .next (transferEnd (.transfer (.protocolError (ackAhead s)) none)
      (openingTrace req s ++ backoffTrace s) 3 s) := by
    rw [← hclass]
    rcases hi with rfl | ⟨w, rfl⟩
    · rw [exec_transferRd hidle hvalid hwf, transferRead_protocolError hclass]
    · rw [exec_transferWr hidle hvalid (by simpa [Instr.wf] using hwf), transferWrite_protocolError hclass]
  refine ⟨Work.free s.draws, 0, s.draws + 1, ?_⟩
  rw [hexec]
  simp only [transferEnd, backoffTrace, ← List.append_assoc]
  rfl

/-- Settles O44: no closed form of a transfer without an OK speaks of the word. -/
theorem unacknowledgedWordIsNotSent : Obligations.UnacknowledgedWordIsNotSent := by
  intro req w w' s hne
  show execTransferWr req w s = execTransferWr req w' s
  cases hrnw : req.getLsbD 1 with
  | true => simp only [execTransferWr, hrnw, refuseIf_true]
  | false =>
    have hsame : transferWrite req w s = transferWrite req w' s := by
      rcases classOf_branches (ackAhead s) with hc | hc | hc
      · exact absurd (classOf_eq_ok hc) hne
      · rw [transferWrite_waitFault hrnw hc, transferWrite_waitFault hrnw hc]
      · rw [transferWrite_protocolError hc, transferWrite_protocolError hc]
    simp only [execTransferWr, hsame]

end Sys2Proof.Machine
end

section
/-! PROOFS. Who drives the line in each clock cycle of a transfer (42_transfer.md R155): the events of the closed forms, read cycle
by cycle. -/

namespace Sys2Proof.Machine

/-! ### runs of events -/

theorem linePerCycle_dirEvents {p : Config.Params} (hdir : p.hasDir = true) (way dir : Dir) (level : Bit) (evs : List PinEvent) :
    linePerCycle dir level (dirEvents p way ++ evs) = linePerCycle way level evs := by
  simp [dirEvents, hdir, linePerCycle]

theorem linePerCycle_cycles (n : Nat) (dir : Dir) (level : Bit) (evs : List PinEvent) :
    linePerCycle dir level (cycleEvents n ++ evs) = List.replicate n (dir, level) ++ linePerCycle dir level evs := by
  induction n with
  | zero => rfl
  | succ n ih => simp [cycleEvents_succ, linePerCycle, ih, List.replicate_succ]

theorem linePerCycle_reads (bs : List Bit) (dir : Dir) (level : Bit) (evs : List PinEvent) :
    linePerCycle dir level (bs.flatMap readEvents ++ evs) =
      List.replicate bs.length (dir, level) ++ linePerCycle dir level evs := by
  induction bs with
  | nil => rfl
  | cons b bs ih => simp [readEvents, linePerCycle, ih, List.replicate_succ]

/-- Bits written are driven each in its cycle, and the last one stays on the line. -/
theorem linePerCycle_writes (bs : List Bit) (dir : Dir) (level : Bit) (evs : List PinEvent) :
    linePerCycle dir level (bs.flatMap writeEvents ++ evs) =
      bs.map (fun b => (dir, b)) ++ linePerCycle dir (bs.getLastD level) evs := by
  induction bs generalizing level with
  | nil => rfl
  | cons b bs ih =>
    simp only [List.flatMap_cons, writeEvents, List.cons_append, List.nil_append, linePerCycle, ih, List.map_cons,
      List.getLastD_cons]

/-- The idle cycles are low; the write of `D1` at the end has no cycle of its own. -/
theorem linePerCycle_idle (s : State) (dir : Dir) (level : Bit) :
    linePerCycle dir level (idleTrace s ++ [.d true]) = List.replicate s.cfg.idle (dir, false) := by
  unfold idleTrace
  by_cases hidle : s.cfg.idle = 0
  · simp [hidle, linePerCycle]
  · simp [hidle, linePerCycle, linePerCycle_cycles]

/-! ### the parts of a transfer -/

/-- The request is driven, the first turnaround and the acknowledgement find the line released and high. -/
theorem linePerCycle_opening {s : State} (hdir : s.params.hasDir = true) (req : BitVec 4) (dir : Dir) (level : Bit)
    (evs : List PinEvent) :
    linePerCycle dir level (openingTrace req s ++ evs) =
      (packetBits req).map (fun b => (Dir.host, b)) ++ List.replicate (s.cfg.turnaround + 3) (Dir.target, true) ++
        linePerCycle .target true evs := by
  simp only [openingTrace, List.append_assoc, linePerCycle_dirEvents hdir, linePerCycle_writes, List.cons_append,
    List.nil_append, linePerCycle, linePerCycle_cycles, linePerCycle_reads, length_samplesFrom, List.replicate_add]

theorem linePerCycle_okRead {s : State} (hdir : s.params.hasDir = true) (w : Word) (p : Bit) :
    linePerCycle .target true (okReadTrace w p s) =
      List.replicate (33 + s.cfg.turnaround) (Dir.target, true) ++ List.replicate s.cfg.idle (Dir.host, false) := by
  have hlength : (bitsOf w ++ [p]).length = 33 := by simp [bitsOf]
  simp only [okReadTrace, List.append_assoc, linePerCycle_reads, hlength, linePerCycle_cycles, linePerCycle_dirEvents hdir,
    List.cons_append, List.nil_append, linePerCycle, linePerCycle_idle, List.replicate_add]

theorem linePerCycle_okWrite {s : State} (hdir : s.params.hasDir = true) (w : Word) :
    linePerCycle .target true (okWriteTrace w s) =
      List.replicate s.cfg.turnaround (Dir.target, true) ++ (bitsOf w ++ [parity w]).map (fun b => (Dir.host, b)) ++
        List.replicate s.cfg.idle (Dir.host, false) := by
  simp only [okWriteTrace, List.append_assoc, linePerCycle_cycles, linePerCycle_dirEvents hdir, linePerCycle_writes,
    linePerCycle_idle]

theorem linePerCycle_waitFaultRead {s : State} (hdir : s.params.hasDir = true) :
    linePerCycle .target true (waitFaultReadTrace s) =
      List.replicate ((if s.cfg.dataPhase then 33 else 0) + s.cfg.turnaround) (Dir.target, true) := by
  cases hd : s.cfg.dataPhase <;>
    simp [waitFaultReadTrace, hd, linePerCycle_cycles, linePerCycle_dirEvents hdir, linePerCycle, List.replicate_add]

theorem linePerCycle_waitFaultWrite {s : State} (hdir : s.params.hasDir = true) :
    linePerCycle .target true (waitFaultWriteTrace s) =
      List.replicate s.cfg.turnaround (Dir.target, true) ++
        List.replicate (if s.cfg.dataPhase then 33 else 0) (Dir.host, s.params.dummyWriteLevel) := by
  cases hd : s.cfg.dataPhase <;>
    simp [waitFaultWriteTrace, hd, linePerCycle_cycles, linePerCycle_dirEvents hdir, linePerCycle]

theorem linePerCycle_backoff {s : State} (hdir : s.params.hasDir = true) :
    linePerCycle .target true (backoffTrace s) = List.replicate (s.cfg.turnaround + 33) (Dir.target, true) := by
  simp [backoffTrace, linePerCycle_cycles, linePerCycle_dirEvents hdir, linePerCycle]

/-! ### the transfers -/

/-- The samples after the acknowledgement spell a word. -/
theorem exists_wordAhead (s : State) : ∃ w : Word, IsWordAhead s w :=
  ⟨BitVec.ofFnLE fun i : Fin 32 => sampleAt s (3 + i), fun i hi => by rw [BitVec.getLsbD_ofFnLE, dif_pos hi]⟩

/-- The lines of a transfer are those of its opening and then those of what its closed form adds. -/
theorem transferEnd_lines {s : State} (hdir : s.params.hasDir = true) {req : BitVec 4} {wdata : Word} {r : Return} {n : Nat}
    {evs : List PinEvent}
    (h : (packetBits req).map (fun b => (Dir.host, b)) ++ List.replicate (s.cfg.turnaround + 3) (Dir.target, true) ++
      linePerCycle .target true evs = transferLines req wdata s) :
    ∃ evs', (transferEnd r (openingTrace req s ++ evs) n s).trace = s.trace ++ evs' ∧
      linePerCycle s.pins.dioDir s.pins.dioO evs' = transferLines req wdata s :=
  ⟨_, rfl, (linePerCycle_opening hdir ..).trans h⟩

variable {req : BitVec 4} {s : State}

/-- WAIT and FAULT give the same lines, the dummy block among the released cycles of a read or after those of a write. -/
theorem transferLines_waitFaultRead {wdata : Word} (hrnw : req.getLsbD 1 = true)
    (hc : classOf (ackAhead s) = .wait ∨ classOf (ackAhead s) = .fault) :
    transferLines req wdata s = (packetBits req).map (fun b => (Dir.host, b)) ++
      List.replicate (s.cfg.turnaround + 3 + (if s.cfg.dataPhase then 33 else 0) + s.cfg.turnaround) (Dir.target, true) := by
  rcases hc with hc | hc <;> simp only [transferLines, hc, hrnw, if_true] <;> split <;> rfl

theorem transferLines_waitFaultWrite {wdata : Word} (hrnw : req.getLsbD 1 = false)
    (hc : classOf (ackAhead s) = .wait ∨ classOf (ackAhead s) = .fault) :
    transferLines req wdata s = (packetBits req).map (fun b => (Dir.host, b)) ++
      List.replicate (s.cfg.turnaround + 3 + s.cfg.turnaround) (Dir.target, true) ++
      List.replicate (if s.cfg.dataPhase then 33 else 0) (Dir.host, s.params.dummyWriteLevel) := by
  rcases hc with hc | hc <;> simp only [transferLines, hc, hrnw, Bool.false_eq_true, if_false, List.map_replicate] <;> split <;>
    simp only [List.append_assoc, List.replicate_zero, List.append_nil]

theorem transferRead_lines (hdir : s.params.hasDir = true) (hrnw : req.getLsbD 1 = true) (wdata : Word) :
    ∃ evs, (transferRead req s).trace = s.trace ++ evs ∧
      linePerCycle s.pins.dioDir s.pins.dioO evs = transferLines req wdata s := by
  rcases classOf_branches (ackAhead s) with hc | hc | hc
  · obtain ⟨w, hw⟩ := exists_wordAhead s
    rw [transferRead_ok hrnw hc hw]
    apply transferEnd_lines hdir
    rw [linePerCycle_okRead hdir]
    simp only [transferLines, hc, hrnw, if_true, List.replicate_add, List.append_assoc, List.map_append,
      List.map_replicate]
  · rw [transferRead_waitFault hrnw hc]
    apply transferEnd_lines hdir
    rw [linePerCycle_waitFaultRead hdir, transferLines_waitFaultRead hrnw hc]
    simp only [List.replicate_add, List.append_assoc]
  · rw [transferRead_protocolError hc]
    apply transferEnd_lines hdir
    rw [linePerCycle_backoff hdir]
    simp only [transferLines, hc, List.replicate_add, List.append_assoc]

theorem transferWrite_lines (hdir : s.params.hasDir = true) (hrnw : req.getLsbD 1 = false) (wdata : Word) :
    ∃ evs, (transferWrite req wdata s).trace = s.trace ++ evs ∧
      linePerCycle s.pins.dioDir s.pins.dioO evs = transferLines req wdata s := by
  rcases classOf_branches (ackAhead s) with hc | hc | hc
  · rw [transferWrite_ok hrnw hc]
    apply transferEnd_lines hdir
    rw [linePerCycle_okWrite hdir]
    simp only [transferLines, hc, hrnw, Bool.false_eq_true, if_false, List.replicate_add, List.append_assoc, List.map_append,
      List.map_replicate]
  · rw [transferWrite_waitFault hrnw hc]
    apply transferEnd_lines hdir
    rw [linePerCycle_waitFaultWrite hdir, transferLines_waitFaultWrite hrnw hc]
    simp only [List.replicate_add, List.append_assoc]
  · rw [transferWrite_protocolError hc]
    apply transferEnd_lines hdir
    rw [linePerCycle_backoff hdir]
    simp only [transferLines, hc, List.replicate_add, List.append_assoc]

/-- Settles O42: cycle by cycle the closed forms of the branches are the lists of the statement. -/
theorem whoDrivesEachCycle : Obligations.WhoDrivesEachCycle := by
  intro req wdata i s t hdir hi he
  rcases hi with rfl | rfl
  · obtain ⟨-, -, hrnw, rfl⟩ := execTransferRd_next.mp he
    exact transferRead_lines hdir hrnw wdata
  · obtain ⟨-, -, hrnw, rfl⟩ := execTransferWr_next.mp he
    exact transferWrite_lines hdir hrnw wdata

end Sys2Proof.Machine
end

section
/-! PROOFS. The phase machine runs the operations (41_sequence.md R113, 42_transfer.md R152): the steps of one phase are the loop of
one procedure, and the phases follow one another as the procedures do. -/

namespace Sys2Proof.Machine

/-! ### runs of the sequencer -/

/-- `n` steps of the sequencer lead from `u` to `v`, whatever number of steps follows. -/
def RunsTo (n : Nat) (u v : State) : Prop := ∀ m, runSequencer (n + m) u = runSequencer m v

theorem RunsTo.refl (u : State) : RunsTo 0 u u := fun m => by rw [Nat.zero_add]

theorem RunsTo.trans {a b : Nat} {u v w : State} (h : RunsTo a u v) (h' : RunsTo b v w) : RunsTo (a + b) u w :=
  fun m => by rw [Nat.add_assoc, h, h']

theorem RunsTo.cast {a b : Nat} {u v : State} (h : RunsTo a u v) (hab : a = b) : RunsTo b u v := hab ▸ h

theorem RunsTo.run {n : Nat} {u v : State} (h : RunsTo n u v) : runSequencer n u = .next v := h 0

theorem runsTo_of_step {u v : State} (hbusy : u.busy = true) (h : sequencerStep u = .next v) : RunsTo 1 u v := fun m => by
  rw [Nat.add_comm]
  simp [runSequencer, hbusy, h]

/-! ### the steps of one phase -/

/-- `s` with `CNT` and the result port replaced: in these alone a phase in progress differs from the procedure it belongs to. -/
def withCounter (c : Nat) (r : Option Return) (s : State) : State := { s with cnt := c, ret := r }

@[simp] theorem withCounter_phase (c : Nat) (r : Option Return) (s : State) : (withCounter c r s).phase = s.phase := rfl

/-- Step `i` of the phase `p`, which has `length` steps, does `f i`; and that has to do with neither the phase nor `CNT` nor the
result port. -/
structure PhaseBody (p : Phase) (length : Nat) (f : Nat → State → State) : Prop where
  busy : p ≠ .idle
  cycle_eq : ∀ s, s.phase = p → phaseCycle s = f (stepsDone length s) s
  phase_eq : ∀ i s, (f i s).phase = s.phase
  withCounter_eq : ∀ i c r s, f i (withCounter c r s) = withCounter c r (f i s)

namespace PhaseBody

variable {p : Phase} {length : Nat} {f : Nat → State → State} (hf : PhaseBody p length f)
include hf

theorem forUp_phase (n i : Nat) (s : State) : (forUp f n i s).phase = s.phase := by
  induction n generalizing i s with
  | zero => rfl
  | succ n ih => rw [forUp_succ, ih, hf.phase_eq]

theorem forUp_withCounter (n i c : Nat) (r : Option Return) (s : State) :
    forUp f n i (withCounter c r s) = withCounter c r (forUp f n i s) := by
  induction n generalizing i s with
  | zero => rfl
  | succ n ih => rw [forUp_succ, forUp_succ, hf.withCounter_eq, ih]

/-- The loop leaves the result port. -/
theorem forUp_ret (n i : Nat) (s : State) : (forUp f n i s).ret = s.ret := by
  have hloop := congrArg State.ret (hf.forUp_withCounter n i s.cnt s.ret s)
  exact hloop

/-- A step that is not the last of its phase counts down; the last one leaves the phase. -/
theorem sequencerStep_eq {n i : Nat} (hi : i + (n + 1) = length) (r : Option Return) {s : State} (hp : s.phase = p) :
    sequencerStep (withCounter (n + 1) r s) =
      .next (if n = 0 then exitPhase (withCounter 0 r (f i s)) else withCounter n r (f i s)) := by
  have hdone : stepsDone length (withCounter (n + 1) r s) = i := show length - (n + 1) = i by omega
  have hcycle : phaseCycle (withCounter (n + 1) r s) = withCounter (n + 1) r (f i s) := by
    rw [hf.cycle_eq (withCounter (n + 1) r s) hp, hdone, hf.withCounter_eq]
  refine sequencerStep_next.mpr ⟨Nat.succ_ne_zero n, ?_⟩
  rw [hcycle]
  by_cases hn : n = 0
  · subst hn; rfl
  · have hn' : (withCounter (n + 1) r s).cnt ≠ 1 := show n + 1 ≠ 1 by omega
    rw [if_neg hn', if_neg hn]
    rfl

/-- The steps left of a phase do what is left of its loop, and then leave it. -/
theorem runsTo_exit {n i : Nat} (hi : i + n = length) (hn : 0 < n) (r : Option Return) {s : State} (hp : s.phase = p) :
    RunsTo n (withCounter n r s) (exitPhase (withCounter 0 r (forUp f n i s))) := by
  induction n generalizing i s with
  | zero => cases hn
  | succ n ih =>
    have hbusy : (withCounter (n + 1) r s).busy = true := busy_true_iff.mpr (hp ▸ hf.busy)
    have hstep := runsTo_of_step hbusy (hf.sequencerStep_eq hi r hp)
    by_cases h0 : n = 0
    · subst h0; exact hstep
    · rw [if_neg h0] at hstep
      have hrest := ih (i := i + 1) (by omega) (Nat.pos_of_ne_zero h0) ((hf.phase_eq i s).trans hp)
      exact (hstep.trans hrest).cast (Nat.add_comm 1 n)

end PhaseBody

/-! ### leaving a phase -/

theorem setDir_withCounter (way : Dir) (c : Nat) (r : Option Return) (s : State) :
    setDir way (withCounter c r s) = withCounter c r (setDir way s) := by
  rw [setDir_eq, setDir_eq]; rfl

/-- Whatever `CNT` was, a phase entered loads it. -/
theorem enterPhase_withCounter (p : Phase) (c : Nat) (s : State) : enterPhase p (withCounter c s.ret s) = enterPhase p s := by
  cases p with
  | req | trn1 => simp only [enterPhase, entryActions, setDir_eq]; rfl
  | idle | seqOut | seqIn | ack | rdata | rpar | trn2Rd | trn2Wr | wdata | wpar | idlecyc | dummyRd | trn2Err | dummyWr
  | backoff => rfl

theorem idleOrEnd_withCounter (c : Nat) (s : State) : idleOrEnd (withCounter c s.ret s) = idleOrEnd s := by
  simp only [idleOrEnd, enterPhase_withCounter]; rfl

theorem afterAck_withCounter (c : Nat) (s : State) : afterAck (withCounter c s.ret s) = afterAck s := by
  simp only [afterAck, enterPhase_withCounter]; rfl

theorem afterErrorTurnaround_withCounter (c : Nat) (s : State) :
    afterErrorTurnaround (withCounter c s.ret s) = afterErrorTurnaround s := by
  simp only [afterErrorTurnaround, enterPhase_withCounter]; rfl

/-- No exit reads `CNT`. -/
theorem exitPhase_withCounter {s : State} (h : s.phase ≠ .idle) (c : Nat) :
    exitPhase (withCounter c s.ret s) = exitPhase s := by
  have hdir : setDir .host (withCounter c s.ret s) = withCounter c (setDir .host s).ret (setDir .host s) := by
    rw [setDir_withCounter, setDir_ret]
  simp only [exitPhase, withCounter_phase, hdir]
  cases hp : s.phase with
  | idle => exact absurd hp h
  | seqOut | seqIn | idlecyc | dummyWr | backoff => rfl
  | req | trn1 | rdata | rpar | wdata | dummyRd | trn2Wr => exact enterPhase_withCounter ..
  | ack => exact afterAck_withCounter ..
  | trn2Rd => exact idleOrEnd_withCounter c (setDio true (setDir .host s))
  | wpar => exact idleOrEnd_withCounter ..
  | trn2Err => exact afterErrorTurnaround_withCounter ..

/-! ### a phase of a transfer, from its entry to its exit -/

/-- The state in which the loop of a phase begins. -/
def entered (p : Phase) (s : State) : State := { entryActions p s with phase := p }

/-- With its loop and its exit named, the run of a phase leads to the exit from the state after the loop. -/
theorem PhaseBody.enterPhase_runsTo {p : Phase} {length : Nat} {f : Nat → State → State} (hf : PhaseBody p length f)
    {s t : State} (exit : State → State) (hload : cntLoad p s = length) (hpos : 0 < length)
    (hloop : forUp f length 0 (entered p s) = t)
    (hexit : ∀ u, u.phase = p → exitPhase u = exit u := by intro u h; simp only [exitPhase, h]) :
    RunsTo length (enterPhase p s) (exit t) := by
  have hrun := hf.runsTo_exit (Nat.zero_add length) hpos (entered p s).ret (s := entered p s) rfl
  have hphase : t.phase = p := hloop ▸ hf.forUp_phase length 0 (entered p s)
  have hret : (entered p s).ret = t.ret := hloop ▸ (hf.forUp_ret length 0 (entered p s)).symm
  have hbusy : t.phase ≠ .idle := by rw [hphase]; exact hf.busy
  rw [hloop, hret, exitPhase_withCounter hbusy 0, hexit t hphase, ← hret, ← hload] at hrun
  rw [← hload]
  exact hrun

theorem forUp_const (f : State → State) (n i : Nat) (s : State) : forUp (fun _ => f) n i s = repeatN n f s := by
  induction n generalizing i s with
  | zero => rfl
  | succ n ih => exact ih (i + 1) (f s)

/-- A phase that only clocks (R152). -/
theorem clockPhase_runsTo {p : Phase} {n : Nat} {s t : State} (exit : State → State) (hload : cntLoad p s = n) (hpos : 0 < n)
    (hloop : repeatN n clockCycle (entered p s) = t) (hp : p ≠ .idle := by exact nofun)
    (hcycle : ∀ u, u.phase = p → phaseCycle u = clockCycle u := by intro u h; simp only [phaseCycle, h])
    (hexit : ∀ u, u.phase = p → exitPhase u = exit u := by intro u h; simp only [exitPhase, h]) :
    RunsTo n (enterPhase p s) (exit t) :=
  have hbody : PhaseBody p n fun _ => clockCycle := ⟨hp, hcycle, fun _ _ => rfl, fun _ _ _ _ => rfl⟩
  hbody.enterPhase_runsTo exit hload hpos ((forUp_const ..).trans hloop) hexit

theorem phaseBody_ack : PhaseBody .ack 3 readAckBit where
  busy := nofun
  cycle_eq s h := by simp only [phaseCycle, h]
  phase_eq _ _ := rfl
  withCounter_eq _ _ _ _ := rfl

theorem phaseBody_rdata : PhaseBody .rdata 32 readDataBit where
  busy := nofun
  cycle_eq s h := by simp only [phaseCycle, h]
  phase_eq _ _ := rfl
  withCounter_eq _ _ _ _ := rfl

theorem phaseBody_wdata : PhaseBody .wdata 32 writeDataBit where
  busy := nofun
  cycle_eq s h := by simp only [phaseCycle, h]
  phase_eq _ _ := rfl
  withCounter_eq _ _ _ _ := rfl

theorem readParBit_phase (s : State) : (readParBit s).phase = s.phase := by
  simp only [readParBit]
  split <;> rfl

theorem readParBit_withCounter (c : Nat) (r : Option Return) (s : State) :
    readParBit (withCounter c r s) = withCounter c r (readParBit s) := by
  show (if nextSample s = s.work.par then _ else _) = withCounter c r (if nextSample s = s.work.par then _ else _)
  split <;> rfl

theorem phaseBody_rpar : PhaseBody .rpar 1 fun _ => readParBit where
  busy := nofun
  cycle_eq s h := by simp only [phaseCycle, h]
  phase_eq _ := readParBit_phase
  withCounter_eq _ := readParBit_withCounter

theorem phaseBody_wpar : PhaseBody .wpar 1 fun _ s => setRes .ok (writeBit s.work.par s) where
  busy := nofun
  cycle_eq s h := by simp only [phaseCycle, h]
  phase_eq _ _ := rfl
  withCounter_eq _ _ _ _ := rfl

/-! ### the request -/

/-- Wire position `k` of the request (R152), the positions of `req` folded into `PAR` (log 23). -/
def requestBitAt (k : Nat) (s : State) : State :=
  if 1 ≤ k ∧ k ≤ 4 then writeBitPar ((packet s.work.req).getLsbD k) s else writeBit ((packet s.work.req).getLsbD k) s

theorem phaseBody_req : PhaseBody .req 8 requestBitAt where
  busy := nofun
  cycle_eq s h := by simp only [phaseCycle, h]; rfl
  phase_eq k s := by unfold requestBitAt; split <;> rfl
  withCounter_eq k c r s := by
    show (if 1 ≤ k ∧ k ≤ 4 then _ else _) = withCounter c r (if 1 ≤ k ∧ k ≤ 4 then _ else _)
    split <;> rfl

/-- The packet bit by bit (R73, R74). -/
theorem packet_getLsbD (req : BitVec 4) :
    (packet req).getLsbD 0 = true ∧ (packet req).getLsbD 1 = req.getLsbD 0 ∧ (packet req).getLsbD 2 = req.getLsbD 1 ∧
    (packet req).getLsbD 3 = req.getLsbD 2 ∧ (packet req).getLsbD 4 = req.getLsbD 3 ∧
    (packet req).getLsbD 5 = (req.getLsbD 0 ^^ req.getLsbD 1 ^^ req.getLsbD 2 ^^ req.getLsbD 3) ∧
    (packet req).getLsbD 6 = false ∧ (packet req).getLsbD 7 = true := by
  revert req; decide

/-- The eight steps of `P_REQ` are the request procedure. -/
theorem forUp_requestBitAt (s : State) : forUp requestBitAt 8 0 (entered .req s) = sendRequest s := by
  obtain ⟨h0, h1, h2, h3, h4, h5, h6, h7⟩ := packet_getLsbD s.work.req
  simp only [forUp, requestBitAt, writeBitPar, writeBit_eq, foldPar, entered, entryActions, setPar, setDir_eq, sendRequest_eq,
    Nat.reduceAdd, Nat.reduceLeDiff, h0, h1, h2, h3, h4, h5, h6, h7, and_true, and_false, if_true, if_false, le_refl]
  simp [packetBits, parity, parityLow]

/-! ### from phase to phase -/

variable {s : State}

theorem req_runsTo (s : State) : RunsTo 8 (enterPhase .req s) (enterPhase .trn1 (sendRequest s)) :=
  phaseBody_req.enterPhase_runsTo (enterPhase .trn1) rfl (by decide) (forUp_requestBitAt s)

theorem trn1_runsTo (hturn : 1 ≤ s.cfg.turnaround) :
    RunsTo s.cfg.turnaround (enterPhase .trn1 s) (enterPhase .ack (turnaround1 s)) :=
  clockPhase_runsTo (enterPhase .ack) rfl hturn
    (by simp only [turnaround1, setPhase_cfg, setDir_cfg, setDio_cfg]; rfl)

theorem ack_runsTo (s : State) : RunsTo 3 (enterPhase .ack s) (afterAck (sampleAck s)) :=
  phaseBody_ack.enterPhase_runsTo afterAck rfl (by decide) rfl

theorem rdata_runsTo (s : State) : RunsTo 32 (enterPhase .rdata s) (enterPhase .rpar (readData s)) :=
  phaseBody_rdata.enterPhase_runsTo (enterPhase .rpar) rfl (by decide) rfl

theorem rpar_runsTo (s : State) : RunsTo 1 (enterPhase .rpar s) (enterPhase .trn2Rd (checkParity s)) :=
  phaseBody_rpar.enterPhase_runsTo (enterPhase .trn2Rd) rfl (by decide) rfl

theorem trn2Rd_runsTo (hturn : 1 ≤ s.cfg.turnaround) :
    RunsTo s.cfg.turnaround (enterPhase .trn2Rd s) (idleOrEnd (turnaround2Read s)) :=
  clockPhase_runsTo (fun u => idleOrEnd (setDio true (setDir .host u))) rfl
    hturn rfl

theorem trn2Wr_runsTo (hturn : 1 ≤ s.cfg.turnaround) :
    RunsTo s.cfg.turnaround (enterPhase .trn2Wr s) (enterPhase .wdata (turnaround2Write s)) :=
  clockPhase_runsTo (fun u => enterPhase .wdata (setDir .host u)) rfl
    hturn rfl

theorem wdata_runsTo (s : State) : RunsTo 32 (enterPhase .wdata s) (enterPhase .wpar (writeData s)) :=
  phaseBody_wdata.enterPhase_runsTo (enterPhase .wpar) rfl (by decide) rfl

theorem wpar_runsTo (s : State) : RunsTo 1 (enterPhase .wpar s) (idleOrEnd (writeParity s)) :=
  phaseBody_wpar.enterPhase_runsTo idleOrEnd rfl (by decide) rfl

/-- Without idle cycles the transfer ends at once (R145, R146). -/
theorem idleOrEnd_runsTo (s : State) : RunsTo s.cfg.idle (idleOrEnd s) (finishOk (idleCycles s)) := by
  unfold idleOrEnd idleCycles
  by_cases hidle : 0 < s.cfg.idle
  · rw [if_pos hidle, if_pos hidle]
    exact clockPhase_runsTo finishOk rfl hidle rfl
  · rw [if_neg hidle, if_neg hidle, Nat.eq_zero_of_not_pos hidle]
    exact .refl _

theorem trn2Err_runsTo (hturn : 1 ≤ s.cfg.turnaround) :
    RunsTo s.cfg.turnaround (enterPhase .trn2Err s) (afterErrorTurnaround (turnaround2Error (resFromAck s))) :=
  clockPhase_runsTo (fun u => afterErrorTurnaround (setDir .host u)) rfl
    hturn rfl

theorem dummyRd_runsTo (hdummy : s.cfg.dataPhase = true ∧ s.rnw = true) :
    RunsTo 33 (enterPhase .dummyRd s) (enterPhase .trn2Err (dummyRead (resFromAck s))) :=
  clockPhase_runsTo (enterPhase .trn2Err) rfl (by decide)
    (if_pos (by exact hdummy)).symm

/-- The dummy block of a write, where there is one, and the end (R147). -/
theorem afterErrorTurnaround_runsTo (s : State) :
    RunsTo (if s.cfg.dataPhase = true ∧ s.rnw = false then 33 else 0) (afterErrorTurnaround s) (finishError (dummyWrite s)) := by
  unfold afterErrorTurnaround dummyWrite
  split
  · exact clockPhase_runsTo finishError rfl (by decide) rfl
  · exact .refl _

theorem backoff_runsTo (s : State) : RunsTo (s.cfg.turnaround + 33) (enterPhase .backoff s) (recoverProtocolError s) :=
  clockPhase_runsTo (fun u => finishError (setDir .host u)) rfl
    (Nat.succ_pos _) rfl

/-! ### the transfers -/

theorem requestAndAck_runsTo (hturn : 1 ≤ s.cfg.turnaround) :
    RunsTo (11 + s.cfg.turnaround) (enterPhase .req s) (afterAck (requestAndAck s)) := by
  have hcfg := sendRequest_cfg s
  have hrun := (req_runsTo s).trans ((trn1_runsTo (s := sendRequest s) (hcfg ▸ hturn)).trans (ack_runsTo _))
  exact hrun.cast (by rw [hcfg]; omega)

theorem okRead_runsTo (hturn : 1 ≤ s.cfg.turnaround) :
    RunsTo (33 + s.cfg.turnaround + s.cfg.idle) (enterPhase .rdata s) (okRead s) := by
  have hparity := (sameRecord_kept s).checkParity_kept ((sameRecord_kept s).readData_kept (.refl s))
  have hturned := (sameRecord_kept s).turnaround2Read_kept hparity
  have hdata := (rdata_runsTo s).trans (rpar_runsTo (readData s))
  have hrest := (trn2Rd_runsTo (s := checkParity (readData s)) (hparity.cfg ▸ hturn)).trans (idleOrEnd_runsTo _)
  exact (hdata.trans hrest).cast (by rw [hparity.cfg, hturned.cfg]; omega)

theorem okWrite_runsTo (hturn : 1 ≤ s.cfg.turnaround) :
    RunsTo (33 + s.cfg.turnaround + s.cfg.idle) (enterPhase .trn2Wr s) (okWrite s) := by
  have hturned := (sameRecord_kept s).turnaround2Write_kept (.refl s)
  have hparity := (sameRecord_kept s).writeParity_kept ((sameRecord_kept s).writeData_kept hturned)
  have hdata := (wdata_runsTo (turnaround2Write s)).trans (wpar_runsTo _)
  have hrest := hdata.trans (idleOrEnd_runsTo (writeParity (writeData (turnaround2Write s))))
  exact ((trn2Wr_runsTo hturn).trans hrest).cast (by rw [hparity.cfg]; omega)

/-- The dummy block of a read, where there is one (R147). -/
theorem dummyRead_runsTo (s : State) :
    RunsTo (if s.cfg.dataPhase = true ∧ s.rnw = true then 33 else 0)
      (if s.cfg.dataPhase = true ∧ s.rnw = true then enterPhase .dummyRd s else enterPhase .trn2Err s)
      (enterPhase .trn2Err (dummyRead (resFromAck s))) := by
  by_cases hdummy : s.cfg.dataPhase = true ∧ s.rnw = true
  · rw [if_pos hdummy, if_pos hdummy]
    exact dummyRd_runsTo hdummy
  · have hskip : dummyRead (resFromAck s) = resFromAck s := if_neg hdummy
    rw [if_neg hdummy, if_neg hdummy, hskip]
    exact .refl _

/-- `RES` is not written between the two entries that load it. -/
theorem resFromAck_dummyRead (s : State) : resFromAck (dummyRead (resFromAck s)) = dummyRead (resFromAck s) := by
  have hwork : (dummyRead (resFromAck s)).work = (resFromAck s).work := dummyRead_work _
  have hres : classOf (dummyRead (resFromAck s)).work.ack = (dummyRead (resFromAck s)).work.res := by rw [hwork]; rfl
  show setRes _ _ = _
  rw [hres]; rfl

theorem recoverWaitFault_runsTo (hturn : 1 ≤ s.cfg.turnaround) :
    RunsTo (s.cfg.turnaround + if s.cfg.dataPhase then 33 else 0)
      (if s.cfg.dataPhase = true ∧ s.rnw = true then enterPhase .dummyRd s else enterPhase .trn2Err s) (recoverWaitFault s) := by
  have hdummy := (sameRecord_kept s).dummyRead_kept ((sameRecord_kept s).resFromAck_kept (.refl s))
  have hturned := (sameRecord_kept s).turnaround2Error_kept hdummy
  have hrnw : (turnaround2Error (dummyRead (resFromAck s))).rnw = s.rnw := by simp [State.rnw, resFromAck]
  have herror := trn2Err_runsTo (s := dummyRead (resFromAck s)) (hdummy.cfg ▸ hturn)
  rw [resFromAck_dummyRead] at herror
  have hrun := (dummyRead_runsTo s).trans (herror.trans (afterErrorTurnaround_runsTo _))
  have hone := dummyCycles_exclusive s.cfg.dataPhase s.rnw
  exact hrun.cast (by rw [hdummy.cfg, hturned.cfg, hrnw]; omega)

/-- What follows the acknowledgement takes what is left of the frame (R82, R152). -/
theorem afterAck_runsTo {f : State → State} (hturn : 1 ≤ s.cfg.turnaround)
    (hok : RunsTo (33 + s.cfg.turnaround + s.cfg.idle) (if s.rnw then enterPhase .rdata s else enterPhase .trn2Wr s) (f s)) :
    ∃ n, 11 + s.cfg.turnaround + n = transferCycles s.cfg (classOf s.work.ack) ∧ RunsTo n (afterAck s) (branchOnAck f s) := by
  unfold afterAck branchOnAck
  cases classOf s.work.ack with
  | ok => exact ⟨_, by simp only [transferCycles]; omega, hok⟩
  | wait | fault => exact ⟨_, by simp only [transferCycles]; split <;> omega, recoverWaitFault_runsTo hturn⟩
  | parityError | protocolError => exact ⟨_, by simp only [transferCycles]; omega, backoff_runsTo s⟩

theorem transfer_runsTo {f : State → State} (hturn : 1 ≤ s.cfg.turnaround)
    (hok : ∀ u : State, 1 ≤ u.cfg.turnaround → u.rnw = s.rnw →
      RunsTo (33 + u.cfg.turnaround + u.cfg.idle) (if u.rnw then enterPhase .rdata u else enterPhase .trn2Wr u) (f u)) :
    RunsTo (transferCycles s.cfg (classOf (ackAhead s))) (enterPhase .req s) (branchOnAck f (requestAndAck s)) := by
  have hcfg := requestAndAck_cfg s
  obtain ⟨n, hn, hrun⟩ := afterAck_runsTo (hcfg ▸ hturn) (hok _ (hcfg ▸ hturn) (requestAndAck_rnw s))
  rw [hcfg, requestAndAck_ack] at hn
  exact ((requestAndAck_runsTo hturn).trans hrun).cast hn

end Sys2Proof.Machine
end

section
/-! PROOFS. The phase machine reaches the state of the operation's own rules (41_sequence.md R113, 42_transfer.md R152): the start of
a command empties the result port, which its end fills again. -/

namespace Sys2Proof.Machine

/-! ### the sequences -/

theorem outBit_withCounter (c : Nat) (r : Option Return) (s : State) :
    outBit (withCounter c r s) = withCounter c r (outBit s) := by
  unfold outBit loadByte withCounter
  by_cases hk : s.work.k = 0
  · simp only [hk, if_true]; rfl
  · simp only [hk, if_false]; rfl

theorem outBit_phase (s : State) : (outBit s).phase = s.phase := by
  unfold outBit loadByte
  dsimp only
  split <;> rfl

theorem phaseBody_seqOut (n : Nat) : PhaseBody .seqOut n fun _ => outBit where
  busy := nofun
  cycle_eq s h := by simp only [phaseCycle, h]
  phase_eq _ := outBit_phase
  withCounter_eq _ := outBit_withCounter

theorem clearByte_withCounter (c : Nat) (r : Option Return) (s : State) :
    clearByte (withCounter c r s) = withCounter c r (clearByte s) := by
  show (if s.work.k = 0 then _ else _) = withCounter c r (if s.work.k = 0 then _ else _)
  split <;> rfl

theorem storeByte_withCounter (c : Nat) (r : Option Return) (s : State) :
    storeByte (withCounter c r s) = withCounter c r (storeByte s) := by
  show (if s.work.k = 0 ∨ s.work.nbits = 0 then _ else _) = withCounter c r (if s.work.k = 0 ∨ s.work.nbits = 0 then _ else _)
  split <;> rfl

theorem captureBit_withCounter (c : Nat) (r : Option Return) (s : State) :
    captureBit (withCounter c r s) = withCounter c r (captureBit s) := rfl

theorem inBit_phase (s : State) : (inBit s).phase = s.phase := by
  have hclear : (clearByte s).phase = s.phase := by unfold clearByte; split <;> rfl
  have hstore (u : State) : (storeByte u).phase = u.phase := by unfold storeByte; split <;> rfl
  exact (hstore _).trans hclear

theorem phaseBody_seqIn (n : Nat) : PhaseBody .seqIn n fun _ => inBit where
  busy := nofun
  cycle_eq s h := by simp only [phaseCycle, h]
  phase_eq _ := inBit_phase
  withCounter_eq _ c r s := by
    simp only [inBit, clearByte_withCounter, captureBit_withCounter, storeByte_withCounter]

/-- A sequence of at least one bit, from `P_IDLE` to the exit of its phase. -/
theorem startSequence_runsTo {p : Phase} {f : State → State} {n : Nat} (hf : PhaseBody p n fun _ => f) (hpos : 0 < n) (way : Dir)
    (s : State) :
    RunsTo n (startSequence p way n { s with ret := none })
      (exitPhase (withCounter 0 none (repeatN n f (beginSeq p way n s)))) := by
  have hstart : startSequence p way n { s with ret := none } = withCounter n none (beginSeq p way n s) := by
    simp only [startSequence, beginSeq_eq, if_neg (Nat.ne_of_gt hpos)]; rfl
  have hphase : (beginSeq p way n s).phase = p := by rw [beginSeq_eq]
  rw [hstart, ← forUp_const f n 0]
  exact hf.runsTo_exit (Nat.zero_add n) hpos none hphase

theorem repeatN_phase {f : State → State} (hf : ∀ s, (f s).phase = s.phase) (n : Nat) (s : State) :
    (repeatN n f s).phase = s.phase :=
  repeatN_keeps (P := fun u => u.phase = s.phase) (fun u hu => (hf u).trans hu) n rfl

theorem sequenceOut_runsTo (n : Nat) (s : State) :
    RunsTo n (startSequence .seqOut .host n { s with ret := none }) (sequenceOut n s) := by
  by_cases hn : n = 0
  · subst hn
    have hend : startSequence .seqOut .host 0 { s with ret := none } = sequenceOut 0 s := by
      simp only [startSequence, sequenceOut, repeatN_zero, beginSeq_eq, if_true]; rfl
    rw [hend]
    exact .refl _
  · have hrun := startSequence_runsTo (phaseBody_seqOut n) (Nat.pos_of_ne_zero hn) .host s
    have hphase : (repeatN n outBit (beginSeq .seqOut .host n s)).phase = .seqOut := by
      rw [repeatN_phase outBit_phase, beginSeq_eq]
    simp only [exitPhase, withCounter_phase, hphase] at hrun
    exact hrun

theorem sequenceIn_runsTo {n : Nat} (hn : 1 ≤ n) (s : State) :
    RunsTo n (startSequence .seqIn .target n { s with ret := none }) (sequenceIn n s) := by
  have hrun := startSequence_runsTo (phaseBody_seqIn n) hn .target s
  have hphase : (repeatN n inBit (beginSeq .seqIn .target n s)).phase = .seqIn := by
    rw [repeatN_phase inBit_phase, beginSeq_eq]
  simp only [exitPhase, withCounter_phase, hphase] at hrun
  exact hrun

/-! ### the transfers -/

/-- A transfer fills the result port whatever it held. -/
theorem transferRead_withRet {req : BitVec 4} (hrnw : req.getLsbD 1 = true) (r : Option Return) (s : State) :
    transferRead req { s with ret := r } = transferRead req s := by
  rcases classOf_branches (ackAhead s) with hc | hc | hc
  · obtain ⟨w, hw⟩ := exists_wordAhead s
    rw [transferRead_ok hrnw hc hw, transferRead_ok (s := { s with ret := r }) hrnw hc hw]; rfl
  · rw [transferRead_waitFault hrnw hc, transferRead_waitFault (s := { s with ret := r }) hrnw hc]; rfl
  · rw [transferRead_protocolError hc, transferRead_protocolError (s := { s with ret := r }) hc]; rfl

theorem transferWrite_withRet {req : BitVec 4} (hrnw : req.getLsbD 1 = false) (w : Word) (r : Option Return) (s : State) :
    transferWrite req w { s with ret := r } = transferWrite req w s := by
  rcases classOf_branches (ackAhead s) with hc | hc | hc
  · rw [transferWrite_ok hrnw hc, transferWrite_ok (s := { s with ret := r }) hrnw hc]; rfl
  · rw [transferWrite_waitFault hrnw hc, transferWrite_waitFault (s := { s with ret := r }) hrnw hc]; rfl
  · rw [transferWrite_protocolError hc, transferWrite_protocolError (s := { s with ret := r }) hc]; rfl

theorem transferRead_runsTo {req : BitVec 4} {s : State} (hturn : 1 ≤ s.cfg.turnaround) (hrnw : req.getLsbD 1 = true) :
    RunsTo (transferCycles s.cfg (classOf (ackAhead s))) (startCommand (.transferRd req) s) (transferRead req s) := by
  rw [← transferRead_withRet hrnw none s]
  refine transfer_runsTo (s := setReq req { s with ret := none }) (f := okRead) hturn fun u hu hdir => ?_
  rw [if_pos (hdir.trans hrnw)]
  exact okRead_runsTo hu

theorem transferWrite_runsTo {req : BitVec 4} {s : State} (hturn : 1 ≤ s.cfg.turnaround) (hrnw : req.getLsbD 1 = false)
    (w : Word) :
    RunsTo (transferCycles s.cfg (classOf (ackAhead s))) (startCommand (.transferWr req w) s) (transferWrite req w s) := by
  rw [← transferWrite_withRet hrnw w none s]
  refine transfer_runsTo (s := setData w (setReq req { s with ret := none })) (f := okWrite) hturn fun u hu hdir => ?_
  rw [if_neg (by rw [hdir]; exact ne_true_of_eq_false hrnw)]
  exact okWrite_runsTo hu

/-- Settles O52: phase by phase the steps are the procedures, for every command that has phases. -/
theorem sequencerRunsTheOperation : Obligations.SequencerRunsTheOperation := by
  intro i s t hmicro hcfg hturn he
  cases i with
  | genSeq count =>
    obtain ⟨-, -, rfl⟩ := execGenSeq_next.mp he
    exact (sequenceOut_runsTo _ s).run
  | xchgSeqOut info =>
    obtain ⟨-, -, -, rfl⟩ := execXchgSeqOut_next.mp he
    exact (sequenceOut_runsTo _ s).run
  | xchgSeqIn info =>
    obtain ⟨-, -, -, rfl⟩ := execXchgSeqIn_next.mp he
    exact (sequenceIn_runsTo (xchgCount_range _ _).1 s).run
  | transferRd req =>
    obtain ⟨-, hvalid, hrnw, rfl⟩ := execTransferRd_next.mp he
    exact (transferRead_runsTo (hturn hvalid) hrnw).run
  | transferWr req w =>
    obtain ⟨-, hvalid, hrnw, rfl⟩ := execTransferWr_next.mp he
    exact (transferWrite_runsTo (hturn hvalid) hrnw w).run
  | cfgWrite => exact absurd rfl hcfg
  | writeBit | readBit | clockCycle => cases hmicro

end Sys2Proof.Machine
end

section
/-! PROOFS. An operation in progress completes (42_transfer.md R154, 70_reset_and_hazards.md R201, R211): the number of steps left
goes down with every step of the sequencer. -/

namespace Sys2Proof.Machine

/-- The most steps an operation can take once the phase `p` is left (R152); the dummy block after the error turnaround is that of a
write. -/
def stepsAfter (p : Phase) (s : State) : Nat :=
  match p with
  | .idle | .seqOut | .seqIn | .idlecyc | .dummyWr | .backoff => 0
  | .req => 36 + 2 * s.cfg.turnaround + s.cfg.idle
  | .trn1 => 36 + s.cfg.turnaround + s.cfg.idle
  | .ack => 33 + s.cfg.turnaround + s.cfg.idle
  | .rdata => 1 + s.cfg.turnaround + s.cfg.idle
  | .rpar => s.cfg.turnaround + s.cfg.idle
  | .trn2Rd => s.cfg.idle
  | .trn2Wr => 33 + s.cfg.idle
  | .wdata => 1 + s.cfg.idle
  | .wpar => s.cfg.idle
  | .dummyRd => s.cfg.turnaround
  | .trn2Err => if s.rnw then 0 else 33

/-- The most steps an operation in progress can still take. -/
def stepsLeft (s : State) : Nat := s.cnt + stepsAfter s.phase s

theorem stepsAfter_congr {s t : State} (hcfg : t.cfg = s.cfg) (hrnw : t.rnw = s.rnw) (p : Phase) :
    stepsAfter p t = stepsAfter p s := by
  simp only [stepsAfter, hcfg, hrnw]

/-- A phase entered has its load and what comes after it left. -/
theorem stepsLeft_enterPhase (p : Phase) (s : State) : stepsLeft (enterPhase p s) = cntLoad p s + stepsAfter p s :=
  congrArg (cntLoad p s + ·) (stepsAfter_congr (entryActions_cfg p s) (entryActions_rnw p s) p)

theorem stepsLeft_idleOrEnd (s : State) : stepsLeft (idleOrEnd s) ≤ s.cfg.idle := by
  unfold idleOrEnd
  split
  · rw [stepsLeft_enterPhase]; exact Nat.le_refl _
  · exact Nat.zero_le _

theorem stepsLeft_afterAck (s : State) : stepsLeft (afterAck s) ≤ 33 + s.cfg.turnaround + s.cfg.idle := by
  apply afterAck_cases (Q := fun t => stepsLeft t ≤ 33 + s.cfg.turnaround + s.cfg.idle)
  case hread => intro _; simp only [stepsLeft_enterPhase, cntLoad, stepsAfter]; omega
  case hwrite => intro _; simp only [stepsLeft_enterPhase, cntLoad, stepsAfter]; omega
  case hdummy => intro _ _; simp only [stepsLeft_enterPhase, cntLoad, stepsAfter]; omega
  case herr => simp only [stepsLeft_enterPhase, cntLoad, stepsAfter]; split <;> omega
  case hback => simp only [stepsLeft_enterPhase, cntLoad, stepsAfter]; omega

theorem stepsLeft_afterErrorTurnaround (s : State) :
    stepsLeft (afterErrorTurnaround s) ≤ if s.rnw then 0 else 33 := by
  unfold afterErrorTurnaround
  split
  · next hdummy =>
    rw [stepsLeft_enterPhase, hdummy.2]
    exact Nat.le_refl _
  · exact Nat.zero_le _

theorem setDir_rnw (way : Dir) (s : State) : (setDir way s).rnw = s.rnw := by rw [State.rnw, setDir_work]; rfl

/-- Leaving a phase leaves at most the steps that can come after it. -/
theorem stepsLeft_exitPhase {s : State} (hbusy : s.phase ≠ .idle) (hdummy : s.phase = .dummyRd → s.rnw = true) :
    stepsLeft (exitPhase s) ≤ stepsAfter s.phase s := by
  unfold exitPhase
  cases hp : s.phase with
  | idle => exact absurd hp hbusy
  | seqOut | seqIn | idlecyc | dummyWr | backoff => exact Nat.zero_le _
  | req | trn1 | rdata | rpar | wdata =>
    simp only [stepsLeft_enterPhase, cntLoad, stepsAfter]; omega
  | ack => exact stepsLeft_afterAck s
  | trn2Rd => simpa [stepsAfter] using stepsLeft_idleOrEnd (setDio true (setDir .host s))
  | trn2Wr => simp only [stepsLeft_enterPhase, cntLoad, stepsAfter, setDir_cfg]; omega
  | wpar => exact stepsLeft_idleOrEnd s
  | dummyRd => simp [stepsLeft_enterPhase, cntLoad, stepsAfter, hdummy hp]
  | trn2Err => simpa only [stepsAfter, setDir_rnw] using stepsLeft_afterErrorTurnaround (setDir .host s)

/-- Every step of the sequencer takes at least one of the steps left. -/
theorem sequencerStep_stepsLeft {s t : State} (hinv : Inv s) (hbusy : s.busy = true) (hs : sequencerStep s = .next t) :
    stepsLeft t < stepsLeft s := by
  obtain ⟨h0, rfl⟩ := sequencerStep_next.mp hs
  have hset := phaseCycle_setting s
  have hrnw : (phaseCycle s).rnw = s.rnw := by rw [State.rnw, hset.req]; rfl
  have hafter (c : Nat) : stepsAfter s.phase { phaseCycle s with cnt := c } = stepsAfter s.phase s :=
    stepsAfter_congr hset.cfg hrnw s.phase
  split
  · have hphase : ({ phaseCycle s with cnt := 0 } : State).phase = s.phase := hset.phase
    have hexit := stepsLeft_exitPhase (s := { phaseCycle s with cnt := 0 }) (hphase ▸ busy_true_iff.mp hbusy)
      fun hd => hrnw.trans (hinv.rnwPhase true (by rw [← hphase, hd]; rfl))
    rw [hphase, hafter] at hexit
    unfold stepsLeft at hexit ⊢
    omega
  · have hleft : stepsLeft { phaseCycle s with cnt := s.cnt - 1 } = s.cnt - 1 + stepsAfter s.phase s := by
      unfold stepsLeft
      rw [show ({ phaseCycle s with cnt := s.cnt - 1 } : State).phase = s.phase from hset.phase, hafter]
    rw [hleft, stepsLeft]
    omega

theorem runSequencer_idle {s : State} (h : s.busy = false) (n : Nat) : runSequencer n s = .next s := by
  cases n with
  | zero => rfl
  | succ n => simp [runSequencer, h]

/-- The sequencer, run for at least the steps left, ends in `P_IDLE`. -/
theorem runSequencer_completes {n : Nat} {s : State} (hinv : Inv s) (hn : stepsLeft s ≤ n) :
    ∃ t, runSequencer n s = .next t ∧ t.busy = false := by
  induction n generalizing s with
  | zero =>
    refine ⟨s, rfl, Bool.eq_false_iff.mpr fun hbusy => ?_⟩
    have hpos := hinv.cntPos hbusy
    unfold stepsLeft at hn
    omega
  | succ n ih =>
    cases hbusy : s.busy with
    | false => exact ⟨s, runSequencer_idle hbusy _, hbusy⟩
    | true =>
      have hstep := sequencerStep_next.mpr ⟨Nat.ne_of_gt (hinv.cntPos hbusy), rfl⟩
      have hless := sequencerStep_stepsLeft hinv hbusy hstep
      obtain ⟨t, hrun, hidle⟩ := ih (sequencerStep_inv hinv hbusy hstep) (by omega)
      exact ⟨t, by simp only [runSequencer, hbusy, hstep, if_true]; exact hrun, hidle⟩

/-- From the entry of a phase of a transfer the longest frame is left at most (R82, R211). -/
theorem cntLoad_add_stepsAfter_le {p : Phase} {s : State} (hp : p.ofTransfer = true) (hturn : s.cfg.turnaround ≤ s.params.turnMax)
    (hidle : s.cfg.idle ≤ s.params.idleMax) :
    cntLoad p s + stepsAfter p s ≤ 44 + 2 * s.params.turnMax + s.params.idleMax := by
  cases p with
  | idle | seqOut | seqIn => cases hp
  | req | trn1 | ack | rdata | rpar | trn2Rd | trn2Wr | wdata | wpar | idlecyc | dummyRd | dummyWr | backoff =>
    simp only [cntLoad, stepsAfter]; omega
  | trn2Err => simp only [cntLoad, stepsAfter]; split <;> omega

/-- An operation in progress has at most the longest frame left (R211). -/
theorem stepsLeft_le {s : State} (hinv : Inv s) (hbusy : s.busy = true) :
    stepsLeft s ≤ max (44 + 2 * s.params.turnMax + s.params.idleMax) (max 64 s.params.genMax) := by
  cases htransfer : s.phase.ofTransfer with
  | true =>
    obtain ⟨hvalid, hcnt⟩ := hinv.transferCfg htransfer
    obtain ⟨-, hturn, hidle⟩ := hinv.cfgLegal hvalid
    have hframe := cntLoad_add_stepsAfter_le htransfer hturn hidle
    unfold stepsLeft
    omega
  | false =>
    have hphase : ∀ p : Phase, p.ofTransfer = false → p = .idle ∨ p = .seqOut ∨ p = .seqIn := by
      intro p; cases p <;> decide
    rcases hphase s.phase htransfer with hp | hp | hp
    · exact absurd hp (busy_true_iff.mp hbusy)
    · have hcnt := (hinv.seqOutCnt hp).2
      simp only [stepsLeft, hp, stepsAfter]
      omega
    · have hcnt := (hinv.seqInCnt hp).2
      simp only [stepsLeft, hp, stepsAfter]
      omega

/-- Settles O58: the steps left are at most the longest frame, and every step takes one. -/
theorem operationInProgressCompletes : Obligations.OperationInProgressCompletes := by
  intro s hinv
  cases hbusy : s.busy with
  | true => exact runSequencer_completes hinv (stepsLeft_le hinv hbusy)
  | false => exact ⟨s, runSequencer_idle hbusy _, hbusy⟩

end Sys2Proof.Machine
end

section
/-! PROOFS. The configuration write, and what else leaves the configuration alone (43_configuration.md R170, R172). -/

namespace Sys2Proof.Machine

/-- Settles O46: the engine is idle, both ranges are met, so nothing refuses the write. -/
theorem cfgWriteEffect : Obligations.CfgWriteEffect := fun _ _ _ _ hbusy hlow hhigh hidle =>
  execCfgWrite_next.mpr ⟨hbusy, ⟨hlow, hhigh⟩, hidle, rfl⟩

/-- No primitive writes a configuration register. -/
theorem cfg_kept (c : Cfg) : KeptByOperations fun t => t.cfg = c where
  mapWork_kept _ _ h := h
  writeBit_kept _ h := h
  readBit_kept h := h
  clockCycle_kept h := h
  setPhase_kept _ h := h
  setDio_kept _ h := h
  setDir_kept way h := (setDir_cfg way _).trans h
  setReq_kept _ h := h
  setCnt_kept _ h := h
  finish_kept _ h := h
  returned_kept _ h := h

/-- Every operation but `CFG_WRITE` leaves the configuration. -/
theorem exec_cfg {i : Instr} {s t : State} (hi : ¬ ∃ a b d, i = .cfgWrite a b d) (he : exec i s = .next t) : t.cfg = s.cfg :=
  (cfg_kept s.cfg).exec_kept (fun _ h => h) (fun _ _ _ _ h => h) (fun _ hw => absurd hw hi) rfl he

theorem sequencerStep_cfg {s t : State} (hs : sequencerStep s = .next t) : t.cfg = s.cfg :=
  (cfg_kept s.cfg).sequencerStep_kept (fun _ h => h) (fun _ _ _ _ h => h) rfl hs

theorem fetch_cfg {s s' : State} {w : CodeWord} (hf : fetch s = some (w, s')) : s'.cfg = s.cfg := by
  rcases fetch_cases hf with ⟨-, -, rfl⟩ | ⟨-, c, rest, -, -, rfl⟩
  · rfl
  · exact accept_cfg c rest s

/-- Settles O47: fetching, the sequencer and every operation but `CFG_WRITE` leave the configuration. -/
theorem onlyCfgWriteChangesConfiguration : Obligations.OnlyCfgWriteChangesConfiguration := by
  intro s t hstep hne
  rcases step_next_cases hstep with ⟨w, s', i, hf, hd, he⟩ | ⟨-, -, hs⟩ | ⟨-, -, rfl⟩
  · by_cases hi : ∃ a b d, i = .cfgWrite a b d
    · obtain ⟨a, b, d, rfl⟩ := hi
      exact ⟨w, s', a, b, d, hf, hd⟩
    · exact absurd ((exec_cfg hi he).trans (fetch_cfg hf)) hne
  · exact absurd (sequencerStep_cfg hs) hne
  · exact absurd rfl hne

end Sys2Proof.Machine
end

section
/-! PROOFS. The one fault is out of reach (60_exceptions.md R180): a test before an operation refuses or lets through, and the
sequencer faults on an exhausted counter only, which a phase in progress never has (10_state.md R25). -/

namespace Sys2Proof.Machine

variable {s : State} {f : Fault} {go : Result}

theorem whenIdle_ne_fault (h : go ≠ .fault f) : whenIdle s go ≠ .fault f := by
  cases hbusy : s.busy with
  | false => rwa [whenIdle_idle hbusy]
  | true => rw [whenIdle_busy hbusy]; nofun

theorem refuseIf_ne_fault {bad : Bool} {why : Refusal} (h : go ≠ .fault f) : refuseIf bad why go ≠ .fault f := by
  cases bad with
  | false => exact h
  | true => nofun

/-- Behind its tests every operation runs to its next state. -/
theorem exec_ne_fault (i : Instr) : exec i s ≠ .fault f := by
  cases i with
  | genSeq => exact whenIdle_ne_fault (refuseIf_ne_fault nofun)
  | xchgSeqOut | xchgSeqIn | transferRd | transferWr | cfgWrite =>
    exact whenIdle_ne_fault (refuseIf_ne_fault (refuseIf_ne_fault nofun))
  | writeBit | readBit | clockCycle => nofun

theorem sequencerStep_ne_fault (h : 0 < s.cnt) : sequencerStep s ≠ .fault f := by
  rw [sequencerStep_next.mpr ⟨Nat.ne_of_gt h, rfl⟩]
  nofun

/-- Settles O57: a word presented is refused or runs an operation, and a phase in progress has steps left. -/
theorem nothingFaults : Obligations.NothingFaults := by
  refine ⟨fun i _ _ => exec_ne_fault i, fun s f hinv => ?_⟩
  cases hf : fetch s with
  | some presented =>
    obtain ⟨w, s'⟩ := presented
    cases hd : decode w with
    | ok i => rw [step_of_fetch hf hd]; exact exec_ne_fault i
    | error e => rw [step_of_undecodable hf hd]; nofun
  | none =>
    rw [step_of_fetch_none hf]
    split
    · next hbusy => exact sequencerStep_ne_fault (hinv.cntPos hbusy)
    · nofun

end Sys2Proof.Machine
end

section
/-! PROOFS. The longest frame bounds every operation (70_reset_and_hazards.md R211): each test before an operation keeps its frame
length in range. -/

namespace Sys2Proof.Machine

/-- No way a transfer ends takes longer than an acknowledged one followed by its idle cycles (R82). -/
theorem transferCycles_le (c : Cfg) (ack : ResultClass) : transferCycles c ack ≤ 44 + 2 * c.turnaround + c.idle := by
  cases ack with
  | ok => exact Nat.le_refl _
  | wait | fault => simp only [transferCycles]; split <;> omega
  | parityError | protocolError => exact Nat.le_add_right _ _

/-- A transfer runs on a written configuration only, whose values are then in range (R26, R27, R29). -/
theorem transferCycles_le_of_legal {s : State} (hlegal : s.cfg.legal s.params) (hvalid : s.cfg.valid = true)
    (ack : ResultClass) : transferCycles s.cfg ack ≤ 44 + 2 * s.params.turnMax + s.params.idleMax := by
  obtain ⟨-, hturn, hidle⟩ := hlegal hvalid
  have hframe := transferCycles_le s.cfg ack
  omega

/-- What runs has a frame of at most the longest transfer or the longest sequence (R211). -/
theorem frameLength_le {i : Instr} {s t : State} (hlegal : s.cfg.legal s.params) (he : exec i s = .next t) :
    frameLength i s ≤ max (44 + 2 * s.params.turnMax + s.params.idleMax) (max 64 s.params.genMax) := by
  cases i with
  | genSeq count =>
    obtain ⟨-, hcount, -⟩ := execGenSeq_next.mp he
    exact le_max_of_le_right (le_max_of_le_right hcount)
  | xchgSeqOut info | xchgSeqIn info =>
    exact le_max_of_le_right (le_max_of_le_left (xchgCount_range s.params info).2)
  | transferRd req =>
    obtain ⟨-, hvalid, -, -⟩ := execTransferRd_next.mp he
    exact le_max_of_le_left (transferCycles_le_of_legal hlegal hvalid _)
  | transferWr req wdata =>
    obtain ⟨-, hvalid, -, -⟩ := execTransferWr_next.mp he
    exact le_max_of_le_left (transferCycles_le_of_legal hlegal hvalid _)
  | cfgWrite => exact Nat.zero_le _
  | writeBit | readBit | clockCycle => simp only [frameLength]; omega

theorem mnemonic_eq_cfgWrite {i : Instr} (h : i.mnemonic = "CFG_WRITE") :
    ∃ turnaround idle dataPhase, i = .cfgWrite turnaround idle dataPhase := by
  cases i with
  | cfgWrite turnaround idle dataPhase => exact ⟨turnaround, idle, dataPhase, rfl⟩
  | genSeq | xchgSeqOut | xchgSeqIn | transferRd | transferWr | writeBit | readBit | clockCycle =>
    simp [Instr.mnemonic] at h

/-- The configuration write issues no pin event (R170). -/
theorem exec_cfgWrite_trace {turnaround idle : BitVec 8} {dataPhase : Bit} {s t : State}
    (he : exec (.cfgWrite turnaround idle dataPhase) s = .next t) : t.trace = s.trace := by
  obtain ⟨-, -, -, rfl⟩ := execCfgWrite_next.mp he
  rfl

/-- Settles O41: an operation takes its frame length, which the tests before it bound, and `CFG_WRITE` writes registers only. -/
theorem frameLengthsAreBounded : Obligations.FrameLengthsAreBounded := by
  intro i s t hlegal he
  constructor
  · rw [frameLengths i s t he]
    exact Nat.add_le_add_left (frameLength_le hlegal he) _
  · intro hm
    obtain ⟨turnaround, idle, dataPhase, rfl⟩ := mnemonic_eq_cfgWrite hm
    exact exec_cfgWrite_trace he

end Sys2Proof.Machine
end

section
/-! PROOFS. Reset and the wait for the first command (70_reset_and_hazards.md R200). -/

namespace Sys2Proof.Machine

/-- Settles O1: the values are those of the reset state, which presents no word and is idle, so by O4 it waits. -/
theorem resetStateAndWait : Obligations.ResetStateAndWait :=
  have hwait := (stepWithoutWord State.reset rfl rfl).1 rfl
  ⟨rfl, rfl, rfl, rfl, hwait⟩

end Sys2Proof.Machine
end
